-- ==== Sys2Proof/Word.lean ====
section
/-! DEFINITION. The two word types of the core: a byte of any space of rule R39, and a device address (R21: UInt7). -/

namespace Sys2Proof

/-- A byte. Every access of the core is a byte access (R43). -/
abbrev Byte := BitVec 8

/-- A USB device address, 0..127 (R9 `ADDR_MAX`, R21). -/
abbrev DevAddr := BitVec 7

end Sys2Proof
end

