-- ==== Sys2Proof/Config.lean ====
section
/-! DEFINITION. The OPEN parameters of rule R9 and the values the spec leaves unspecified. An OPEN parameter has no value
in this model: `Config.params` is a constant without a body, and every run carries its parameters in `State.par`, so that a
statement about every state is a statement about every choice of parameters. -/

namespace Sys2Proof

/-- The address spaces of rule R39. `str i` is the space STR(i). -/
inductive Space where
  | ep0tx | ep0rx | ep1tx | ep2rx | ep2tx | ring | lc | dev | cfg
  | str (i : Byte)
  deriving DecidableEq, Repr

/-- Where the platform places the registers of ep[0], ep[1] or ep[2] (R23, R46), each address counted in words. -/
structure EpRegisterMap where
  txMode : Nat
  rxMode : Nat
  txTog : Nat
  rxTog : Nat
  txLen : Nat
  rxLen : Nat
  autoTog : Nat
  deriving DecidableEq, Repr, Inhabited

/-- Where the platform places the registers of ep[3], which "holds txMode, rxMode, txTog and rxTog only" (R25). -/
structure PairRegisterMap where
  txMode : Nat
  rxMode : Nat
  txTog : Nat
  rxTog : Nat
  deriving DecidableEq, Repr, Inhabited

/-- EP_ADDR_MAP: "addresses of the endpoint buffers and registers", "fixed, word-aligned" (R9, R46, D40), with the device
address register (R137). An address is counted in words, and the spec gives no word size, so every value of this type is a
word-aligned map (log entry 26). -/
structure EpAddrMap where
  /-- The bytes of a word, less one. -/
  wordBytesPred : Nat
  ep0tx : Nat
  ep0rx : Nat
  ep1tx : Nat
  ep2rx : Nat
  ep2tx : Nat
  ep0 : EpRegisterMap
  ep1 : EpRegisterMap
  ep2 : EpRegisterMap
  ep3 : PairRegisterMap
  devAddr : Nat
  deriving DecidableEq, Repr, Inhabited

/-- The OPEN parameters of R9, in a form in which every value meets the constraints R9 puts on it:
`1 ≤ TXCAP ≤ 255`, `W_TO ≥ 7`, `|CFG_DESC| ≥ 8`, and EP_ADDR_MAP word-aligned. -/
structure Params where
  /-- TXCAP − 1 (D22). -/
  txcapPred : Fin 255
  /-- W_TO − 7 (D23). -/
  wToExtra : Nat
  /-- DEV_DESC (D21). -/
  devDesc : List Byte
  /-- CFG_DESC[0..8): R9 asks for at least eight bytes, and byte 7 holds the wake bit (D21). -/
  cfgHead : Vector Byte 8
  /-- The rest of CFG_DESC. -/
  cfgTail : List Byte
  /-- STR_DESC, a partial map from a string index to a table; the first entry of an index counts (D20, D21). -/
  strDesc : List (Byte × List Byte)
  /-- EP_ADDR_MAP (D40). R46: no rule of the core reads it. -/
  epAddrMap : EpAddrMap
  deriving DecidableEq, Repr, Inhabited

namespace Config

/-- The parameters of the hardware: OPEN (R9), so a constant nothing can evaluate. -/
opaque params : Params

/-- What a byte holds that nothing has written since power-on: R145 "unspecified ... an arbitrary value fixed at
power-on" (I4, I5, I6). A free value: no proof can see it. -/
opaque powerOnByte : Space → Nat → Byte

end Config
end Sys2Proof
end

