-- ==== Sys2Proof/Syntax.lean ====
section
/-! DEFINITION. The instructions: one constructor for each row of spec/opcode_table.json, in the table's order. The first 22
rows (format SETUP_KEY32) are the Setup requests; each is a whole SETUP transaction to EP0 whose 8-byte packet the row's
mask and match select (R65). The other 18 rows (format OP8) are the operations on the core's interface (R68). -/

namespace Sys2Proof

/-- The DATA PID of a packet, and the value of a toggle bit: 0 is DATA0, 1 is DATA1 (R16, R63). -/
inductive Pid where
  | data0 | data1
  deriving DecidableEq, Repr

/-- SetupRequest, the record decoded from the 8-byte Setup packet (R28, R55). -/
structure SetupRequest where
  bmRequestType : Byte
  bRequest : Byte
  wValueL : Byte
  wValueH : Byte
  wIndexL : Byte
  wIndexH : Byte
  wLength : BitVec 16
  deriving DecidableEq, Repr

/-- One operation on the core. `a` is the device address of the token, `r` the packet of a request, `data` the bytes of a
data packet, `acks` the draw whether the host acknowledges (R71), `ep` the endpoint number op[3:0]. -/
inductive Instr where
  | getStatus (a : DevAddr) (r : SetupRequest)
  | clearFeatureDevice (a : DevAddr) (r : SetupRequest)
  | clearFeatureEndpoint (a : DevAddr) (r : SetupRequest)
  | clearFeatureBad (a : DevAddr) (r : SetupRequest)
  | setFeatureDevice (a : DevAddr) (r : SetupRequest)
  | setFeatureEndpoint (a : DevAddr) (r : SetupRequest)
  | setFeatureBad (a : DevAddr) (r : SetupRequest)
  | setAddress (a : DevAddr) (r : SetupRequest)
  | setAddressBad (a : DevAddr) (r : SetupRequest)
  | getDescriptorDevice (a : DevAddr) (r : SetupRequest)
  | getDescriptorConfig (a : DevAddr) (r : SetupRequest)
  | getDescriptorString (a : DevAddr) (r : SetupRequest)
  | getDescriptorBad (a : DevAddr) (r : SetupRequest)
  | getConfiguration (a : DevAddr) (r : SetupRequest)
  | setConfiguration (a : DevAddr) (r : SetupRequest)
  | setConfigurationBad (a : DevAddr) (r : SetupRequest)
  | stdUnsupported (a : DevAddr) (r : SetupRequest)
  | setLineCoding (a : DevAddr) (r : SetupRequest)
  | getLineCoding (a : DevAddr) (r : SetupRequest)
  | setControlLineState (a : DevAddr) (r : SetupRequest)
  | resetDeviceToBootloader (a : DevAddr) (r : SetupRequest)
  | nonstdUnsupported (a : DevAddr) (r : SetupRequest)
  | setup (a : DevAddr) (data : List Byte)
  | setupUndeclaredEp (ep : BitVec 4) (a : DevAddr) (data : List Byte)
  | inEp0 (a : DevAddr) (acks : Bool)
  | inEp1 (a : DevAddr) (acks : Bool)
  | inEp2 (a : DevAddr) (acks : Bool)
  | inUndeclaredEp (ep : BitVec 4) (a : DevAddr) (acks : Bool)
  | outEp0 (a : DevAddr) (pid : Pid) (data : List Byte)
  | outEp2 (a : DevAddr) (pid : Pid) (data : List Byte)
  | outUndeclaredEp (ep : BitVec 4) (a : DevAddr) (pid : Pid) (data : List Byte)
  | busReset
  | busSuspend
  | resume
  | rxd0Low
  | rxd1Low
  | poll (uart : Bool)
  | tick
  | enq (b : Byte)
  | emptyQuery
  deriving DecidableEq, Repr

/-- Why bytes are no operation. -/
inductive DecodeError where
  /-- No byte is left: nobody has issued an operation. -/
  | noOperation
  /-- The bytes end inside an operation's operands. -/
  | truncated
  /-- An operation code R68 leaves unassigned (R67: "a model refuses them"). -/
  | unassignedCode (op : Byte)
  /-- An operand byte outside its range: an address above 127, or a draw, PID or sample that is neither 0 nor 1. -/
  | badOperand
  deriving DecidableEq, Repr

end Sys2Proof
end

