-- ==== Sys2Proof/Machine/Fields.lean ====
section
/-! DEFINITION. Bit fields and byte order: the little-endian joins of R12 and R42, the fields of a Setup packet (R55, R56),
the toggle complement (R11), and the parameters of R9 as the rules write them. -/

namespace Sys2Proof.Machine

/-- `le16(lo, hi) = {hi, lo}` (R12). -/
def le16 (lo hi : Byte) : BitVec 16 := hi ++ lo

/-- `le32(b0, b1, b2, b3) = {b3, b2, b1, b0}` (R12). -/
def le32 (b0 b1 b2 b3 : Byte) : BitVec 32 := b3 ++ b2 ++ b1 ++ b0

/-- Byte `i` of a 32-bit value in little-endian order (R42). -/
def byteOf32 (v : BitVec 32) (i : Nat) : Byte := v.extractLsb' (8 * i) 8

/-- Byte `i` of a 16-bit value in little-endian order (R42). -/
def byteOf16 (v : BitVec 16) (i : Nat) : Byte := v.extractLsb' (8 * i) 8

/-- wValue = le16(wValueL, wValueH) (R55). -/
def wValue (r : SetupRequest) : BitVec 16 := le16 r.wValueL r.wValueH

/-- The type field bmRequestType[6:5] (R56). -/
def typeField (r : SetupRequest) : BitVec 2 := r.bmRequestType.extractLsb' 5 2

/-- The recipient field bmRequestType[4:0] (R56). -/
def recipient (r : SetupRequest) : BitVec 5 := r.bmRequestType.extractLsb' 0 5

/-- Type 0 routes to the standard dispatcher, every other type to the non-standard one (R56, R80). -/
def isStandard (r : SetupRequest) : Bool := typeField r == 0

/-- The eight bytes of the packet, in bus order (R55). -/
def packetBytes (r : SetupRequest) : List Byte :=
  [r.bmRequestType, r.bRequest, r.wValueL, r.wValueH, r.wIndexL, r.wIndexH, byteOf16 r.wLength 0, byteOf16 r.wLength 1]

/-- `decode(p[0..8))` of R55; `none` when the packet is not eight bytes long. -/
def packetOf : List Byte → Option SetupRequest
  | [p0, p1, p2, p3, p4, p5, p6, p7] => some ⟨p0, p1, p2, p3, p4, p5, le16 p6 p7⟩
  | _ => none

/-- `~t` on a toggle (R11). -/
def flipPid : Pid → Pid
  | .data0 => .data1
  | .data1 => .data0

/-- A one-bit value as a byte, for GET_CONFIGURATION's answer (R97). -/
def bitByte (b : BitVec 1) : Byte := b.setWidth 8

/-! ### The numbers of rule R9 -/

/-- MAXPKT: max packet size of EP0 and of the bulk endpoints. -/
abbrev maxPkt : Nat := 64
/-- EP1_MAXPKT (D50). No rule depends on it. -/
abbrev ep1MaxPkt : Nat := 64
/-- TX_THRESHOLD: a drain triggers when pending ≥ 39. -/
abbrev txThreshold : Nat := 39
/-- TX_TIMEOUT: a drain triggers when the counter > 100. -/
abbrev txTimeout : Nat := 100
/-- BAUD_MAX: the largest baud kept as sent. -/
abbrev baudMax : Nat := 999999
/-- BAUD_DEFAULT: the default and clamp baud. -/
abbrev baudDefault : BitVec 32 := 57600
/-- SETUP_LEN: the required length of a Setup packet. -/
abbrev setupLen : Nat := 8
/-- LC_LEN: the length of the line-coding record. -/
abbrev lcLen : Nat := 7
/-- NUM_EP: the number of hardware endpoints the descriptor declares. -/
abbrev numEp : Nat := 3
/-- The pending request identifier after a failure (R28), the source's sentinel FAIL_LEN. -/
abbrev noRequest : Byte := 0xFF

/-- TXCAP (R9). -/
def txcap (p : Params) : Nat := p.txcapPred.val + 1

/-- W_TO (R9). -/
def wTo (p : Params) : Nat := p.wToExtra + 7

/-- CFG_DESC (R9). -/
def cfgDesc (p : Params) : List Byte := p.cfgHead.toList ++ p.cfgTail

/-- STR_DESC(i), `none` for an index outside its domain (R9). -/
def strDesc (p : Params) (i : Byte) : Option (List Byte) := p.strDesc.lookup i

/-- WAKE_ADVERTISED = `(CFG_DESC[7] & 0x20) != 0` (R9). -/
def wakeAdvertised (p : Params) : Bool := p.cfgHead[7].getLsbD 5

end Sys2Proof.Machine
end

