-- ==== Sys2Proof/WellFormed.lean ====
section
/-! DEFINITION. Which terms of `Instr` are the instruction they are named for. A request row is well formed for exactly the
packets the rules of file 30 give it (R57 to R60, written here in the fields of R56 and not in the masks of the table); an
undeclared-endpoint row for the endpoint numbers of R73; and a data packet's length fits the count byte of its encoding. A
SETUP of an 8-byte packet is named by its request's row. -/

namespace Sys2Proof
open Sys2Proof.Machine

/-- Standard request `code` (R57). -/
def WellFormed.std (r : SetupRequest) (code : Byte) : Bool := isStandard r && r.bRequest == code

/-- Non-standard request `code` (R58). -/
def WellFormed.nonstd (r : SetupRequest) (code : Byte) : Bool := !isStandard r && r.bRequest == code

/-- The pairing of selector and recipient of the device feature (R60). -/
def WellFormed.deviceFeature (r : SetupRequest) : Bool := recipient r == 0 && wValue r == 1

/-- The pairing of selector and recipient of the endpoint feature (R60). -/
def WellFormed.endpointFeature (r : SetupRequest) : Bool := recipient r == 2 && wValue r == 0

/-- SET_ADDRESS's value check (R95). -/
def WellFormed.addressValue (r : SetupRequest) : Bool := r.wValueH == 0 && r.wValueL.toNat ≤ 127

/-- The check on a whole instruction. -/
def WellFormed : Instr → Bool
  | .getStatus _ r => WellFormed.std r 0x00
  | .clearFeatureDevice _ r => WellFormed.std r 0x01 && WellFormed.deviceFeature r
  | .clearFeatureEndpoint _ r => WellFormed.std r 0x01 && WellFormed.endpointFeature r
  | .clearFeatureBad _ r => WellFormed.std r 0x01 && !WellFormed.deviceFeature r && !WellFormed.endpointFeature r
  | .setFeatureDevice _ r => WellFormed.std r 0x03 && WellFormed.deviceFeature r
  | .setFeatureEndpoint _ r => WellFormed.std r 0x03 && WellFormed.endpointFeature r
  | .setFeatureBad _ r => WellFormed.std r 0x03 && !WellFormed.deviceFeature r && !WellFormed.endpointFeature r
  | .setAddress _ r => WellFormed.std r 0x05 && WellFormed.addressValue r
  | .setAddressBad _ r => WellFormed.std r 0x05 && !WellFormed.addressValue r
  | .getDescriptorDevice _ r => WellFormed.std r 0x06 && r.wValueH == 1
  | .getDescriptorConfig _ r => WellFormed.std r 0x06 && r.wValueH == 2
  | .getDescriptorString _ r => WellFormed.std r 0x06 && r.wValueH == 3
  | .getDescriptorBad _ r => WellFormed.std r 0x06 && r.wValueH != 1 && r.wValueH != 2 && r.wValueH != 3
  | .getConfiguration _ r => WellFormed.std r 0x08
  | .setConfiguration _ r => WellFormed.std r 0x09 && r.wValueL.toNat ≤ 1
  | .setConfigurationBad _ r => WellFormed.std r 0x09 && !(r.wValueL.toNat ≤ 1)
  | .stdUnsupported _ r => isStandard r && !([0x00, 0x01, 0x03, 0x05, 0x06, 0x08, 0x09].contains r.bRequest)
  | .setLineCoding _ r => WellFormed.nonstd r 0x20
  | .getLineCoding _ r => WellFormed.nonstd r 0x21
  | .setControlLineState _ r => WellFormed.nonstd r 0x22
  | .resetDeviceToBootloader _ r => WellFormed.nonstd r 0x65
  | .nonstdUnsupported _ r => !isStandard r && !([0x20, 0x21, 0x22, 0x65].contains r.bRequest)
  | .setup _ data => data.length ≤ 255 && data.length != setupLen
  | .setupUndeclaredEp ep _ data => ep != 0 && data.length ≤ 255
  | .inEp0 _ _ => true
  | .inEp1 _ _ => true
  | .inEp2 _ _ => true
  | .inUndeclaredEp ep _ _ => ep != 0 && ep != 1 && ep != 2
  | .outEp0 _ _ data => data.length ≤ 255
  | .outEp2 _ _ data => data.length ≤ 255
  | .outUndeclaredEp ep _ _ data => ep != 0 && ep != 2 && data.length ≤ 255
  | .busReset => true
  | .busSuspend => true
  | .resume => true
  | .rxd0Low => true
  | .rxd1Low => true
  | .poll _ => true
  | .tick => true
  | .enq _ => true
  | .emptyQuery => true

end Sys2Proof
end

