-- ==== Sys2Proof/Decode.lean ====
section
/-! DEFINITION. Decoding. A Setup packet is decoded by the masks of spec/opcode_table.json on the 32-bit key of R65, the
first matching row in table order; an operation by its 8-bit code (R68) and its operands. The bytes of an operation are
laid out as 95_test_vectors.md section 0 serialises a script line (log entry 2). The encoder after it is written from the
same layouts. -/

namespace Sys2Proof
open Sys2Proof.Machine

/-! ### Setup requests (R65) -/

/-- One SETUP_KEY32 row of the opcode table. -/
structure RequestRow where
  mask : BitVec 32
  pattern : BitVec 32
  build : DevAddr → SetupRequest → Instr

/-- The rows of the table from GET_STATUS and the feature requests. -/
def featureRows : List RequestRow :=
  [⟨0x0000FF60, 0x00000000, .getStatus⟩,
   ⟨0xFFFFFF7F, 0x00010100, .clearFeatureDevice⟩,
   ⟨0xFFFFFF7F, 0x00000102, .clearFeatureEndpoint⟩,
   ⟨0x0000FF60, 0x00000100, .clearFeatureBad⟩,
   ⟨0xFFFFFF7F, 0x00010300, .setFeatureDevice⟩,
   ⟨0xFFFFFF7F, 0x00000302, .setFeatureEndpoint⟩,
   ⟨0x0000FF60, 0x00000300, .setFeatureBad⟩]

/-- The rows of the table from SET_ADDRESS to SET_CONFIGURATION_BAD. -/
def deviceRows : List RequestRow :=
  [⟨0xFF80FF60, 0x00000500, .setAddress⟩,
   ⟨0x0000FF60, 0x00000500, .setAddressBad⟩,
   ⟨0xFF00FF60, 0x01000600, .getDescriptorDevice⟩,
   ⟨0xFF00FF60, 0x02000600, .getDescriptorConfig⟩,
   ⟨0xFF00FF60, 0x03000600, .getDescriptorString⟩,
   ⟨0x0000FF60, 0x00000600, .getDescriptorBad⟩,
   ⟨0x0000FF60, 0x00000800, .getConfiguration⟩,
   ⟨0x00FEFF60, 0x00000900, .setConfiguration⟩,
   ⟨0x0000FF60, 0x00000900, .setConfigurationBad⟩]

/-- The rows of the table from STD_UNSUPPORTED and the non-standard rows. -/
def otherRows : List RequestRow :=
  [⟨0x00000060, 0x00000000, .stdUnsupported⟩,
   ⟨0x0000FF00, 0x00002000, .setLineCoding⟩,
   ⟨0x0000FF00, 0x00002100, .getLineCoding⟩,
   ⟨0x0000FF00, 0x00002200, .setControlLineState⟩,
   ⟨0x0000FF00, 0x00006500, .resetDeviceToBootloader⟩,
   ⟨0x00000000, 0x00000000, .nonstdUnsupported⟩]

/-- The 22 rows in table order: "the specific rows come before the catch-all FAIL rows" (R65). -/
def requestRows : List RequestRow := featureRows ++ deviceRows ++ otherRows

/-- `K = {wValueH, wValueL, bRequest, bmRequestType}` (R65). -/
def requestKey (r : SetupRequest) : BitVec 32 := r.wValueH ++ r.wValueL ++ r.bRequest ++ r.bmRequestType

/-- "A row matches when `K & mask = match`" (R65). -/
def rowMatches (k : BitVec 32) (row : RequestRow) : Bool := k &&& row.mask == row.pattern

/-- The first row that matches (R65); the last row matches every key. -/
def decodeRequest (a : DevAddr) (r : SetupRequest) : Instr :=
  match requestRows.find? (rowMatches (requestKey r)) with
  | some row => row.build a r
  | none => .nonstdUnsupported a r

/-! ### Operands -/

/-- The device address of a token: 0..127 (R9 ADDR_MAX). -/
def decodeAddr (b : Byte) : Option DevAddr := if b.toNat < 128 then some (b.setWidth 7) else none

/-- A draw or a sample: 00 or 01. -/
def decodeFlag (b : Byte) : Option Bool := if b = 0 then some false else if b = 1 then some true else none

/-- The PID of a data packet: 00 for DATA0, 01 for DATA1. -/
def decodePid (b : Byte) : Option Pid := if b = 0 then some .data0 else if b = 1 then some .data1 else none

/-- A byte count and that many bytes. -/
def decodeData (n : Byte) (rest : List Byte) : Except DecodeError (List Byte × List Byte) :=
  if rest.length < n.toNat then .error .truncated else .ok (rest.take n.toNat, rest.drop n.toNat)

/-- The operands `aa nn d..` of a SETUP. -/
def decodeSetupOperands (build : DevAddr → List Byte → Instr) : List Byte → Except DecodeError (Instr × List Byte)
  | aa :: nn :: rest =>
    match decodeAddr aa with
    | none => .error .badOperand
    | some a =>
      match decodeData nn rest with
      | .error e => .error e
      | .ok (data, rest') => .ok (build a data, rest')
  | _ => .error .truncated

/-- The operands `aa 0k` of an IN. -/
def decodeInOperands (build : DevAddr → Bool → Instr) : List Byte → Except DecodeError (Instr × List Byte)
  | aa :: kk :: rest =>
    match decodeAddr aa, decodeFlag kk with
    | some a, some acks => .ok (build a acks, rest)
    | _, _ => .error .badOperand
  | _ => .error .truncated

/-- The operands `aa 0p nn d..` of an OUT. -/
def decodeOutOperands (build : DevAddr → Pid → List Byte → Instr) : List Byte → Except DecodeError (Instr × List Byte)
  | aa :: pp :: nn :: rest =>
    match decodeAddr aa, decodePid pp with
    | some a, some pid =>
      match decodeData nn rest with
      | .error e => .error e
      | .ok (data, rest') => .ok (build a pid data, rest')
    | _, _ => .error .badOperand
  | _ => .error .truncated

/-- A SETUP of an 8-byte packet is the request the table gives its key; any other length has no key (R65, R66). -/
def setupInstr (a : DevAddr) (data : List Byte) : Instr :=
  match packetOf data with
  | some r => decodeRequest a r
  | none => .setup a data

/-! ### Operations (R68) -/

/-- OUT token codes 0x00..0x0F, by endpoint. -/
def decodeOut (ep : BitVec 4) : List Byte → Except DecodeError (Instr × List Byte) :=
  decodeOutOperands (if ep = 0 then .outEp0 else if ep = 2 then .outEp2 else .outUndeclaredEp ep)

/-- IN token codes 0x20..0x2F, by endpoint. -/
def decodeIn (ep : BitVec 4) : List Byte → Except DecodeError (Instr × List Byte) :=
  decodeInOperands (if ep = 0 then .inEp0 else if ep = 1 then .inEp1 else if ep = 2 then .inEp2 else .inUndeclaredEp ep)

/-- SETUP token codes 0x30..0x3F, by endpoint. -/
def decodeSetup (ep : BitVec 4) : List Byte → Except DecodeError (Instr × List Byte) :=
  decodeSetupOperands (if ep = 0 then setupInstr else .setupUndeclaredEp ep)

/-- POLL's operand `0u`. -/
def decodePoll : List Byte → Except DecodeError (Instr × List Byte)
  | uu :: rest =>
    match decodeFlag uu with
    | some uart => .ok (.poll uart, rest)
    | none => .error .badOperand
  | [] => .error .truncated

/-- ENQ's operand. -/
def decodeEnq : List Byte → Except DecodeError (Instr × List Byte)
  | b :: rest => .ok (.enq b, rest)
  | [] => .error .truncated

/-- The codes above the token space (R68); 0x10..0x1F, 0x45..0x47, 0x49..0x7F and 0x83..0xFF are unassigned. -/
def decodeEvent (op : Byte) (rest : List Byte) : Except DecodeError (Instr × List Byte) :=
  if op = 0x40 then .ok (.busReset, rest)
  else if op = 0x41 then .ok (.busSuspend, rest)
  else if op = 0x42 then .ok (.resume, rest)
  else if op = 0x43 then .ok (.rxd0Low, rest)
  else if op = 0x44 then .ok (.rxd1Low, rest)
  else if op = 0x48 then decodePoll rest
  else if op = 0x80 then .ok (.tick, rest)
  else if op = 0x81 then decodeEnq rest
  else if op = 0x82 then .ok (.emptyQuery, rest)
  else .error (.unassignedCode op)

/-- The operation code's token field op[7:4]. -/
def opToken (op : Byte) : BitVec 4 := op.extractLsb' 4 4

/-- The operation code's endpoint field op[3:0]. -/
def opEndpoint (op : Byte) : BitVec 4 := op.extractLsb' 0 4

/-- One operation, and the bytes after it. -/
def decode : List Byte → Except DecodeError (Instr × List Byte)
  | [] => .error .noOperation
  | op :: rest =>
    if opToken op = 0 then decodeOut (opEndpoint op) rest
    else if opToken op = 2 then decodeIn (opEndpoint op) rest
    else if opToken op = 3 then decodeSetup (opEndpoint op) rest
    else decodeEvent op rest

/-! ### The encoder -/

/-- A token's operation code. -/
def tokenCode (token ep : BitVec 4) : Byte := token ++ ep

/-- A flag operand. -/
def encodeFlag (b : Bool) : Byte := if b then 1 else 0

/-- A PID operand. -/
def encodePid : Pid → Byte
  | .data0 => 0
  | .data1 => 1

/-- A byte count and the bytes. -/
def encodeData (data : List Byte) : List Byte := BitVec.ofNat 8 data.length :: data

/-- `3n aa nn d0 .. dk`. -/
def encodeSetup (ep : BitVec 4) (a : DevAddr) (data : List Byte) : List Byte :=
  tokenCode 3 ep :: a.setWidth 8 :: encodeData data

/-- `2n aa 0k`. -/
def encodeIn (ep : BitVec 4) (a : DevAddr) (acks : Bool) : List Byte := [tokenCode 2 ep, a.setWidth 8, encodeFlag acks]

/-- `0n aa 0p nn d..`. -/
def encodeOut (ep : BitVec 4) (a : DevAddr) (pid : Pid) (data : List Byte) : List Byte :=
  tokenCode 0 ep :: a.setWidth 8 :: encodePid pid :: encodeData data

/-- A request is the SETUP of its packet. -/
def encodeRequest (a : DevAddr) (r : SetupRequest) : List Byte := encodeSetup 0 a (packetBytes r)

/-- The bytes of an instruction. -/
def encode : Instr → List Byte
  | .getStatus a r => encodeRequest a r
  | .clearFeatureDevice a r => encodeRequest a r
  | .clearFeatureEndpoint a r => encodeRequest a r
  | .clearFeatureBad a r => encodeRequest a r
  | .setFeatureDevice a r => encodeRequest a r
  | .setFeatureEndpoint a r => encodeRequest a r
  | .setFeatureBad a r => encodeRequest a r
  | .setAddress a r => encodeRequest a r
  | .setAddressBad a r => encodeRequest a r
  | .getDescriptorDevice a r => encodeRequest a r
  | .getDescriptorConfig a r => encodeRequest a r
  | .getDescriptorString a r => encodeRequest a r
  | .getDescriptorBad a r => encodeRequest a r
  | .getConfiguration a r => encodeRequest a r
  | .setConfiguration a r => encodeRequest a r
  | .setConfigurationBad a r => encodeRequest a r
  | .stdUnsupported a r => encodeRequest a r
  | .setLineCoding a r => encodeRequest a r
  | .getLineCoding a r => encodeRequest a r
  | .setControlLineState a r => encodeRequest a r
  | .resetDeviceToBootloader a r => encodeRequest a r
  | .nonstdUnsupported a r => encodeRequest a r
  | .setup a data => encodeSetup 0 a data
  | .setupUndeclaredEp ep a data => encodeSetup ep a data
  | .inEp0 a acks => encodeIn 0 a acks
  | .inEp1 a acks => encodeIn 1 a acks
  | .inEp2 a acks => encodeIn 2 a acks
  | .inUndeclaredEp ep a acks => encodeIn ep a acks
  | .outEp0 a pid data => encodeOut 0 a pid data
  | .outEp2 a pid data => encodeOut 2 a pid data
  | .outUndeclaredEp ep a pid data => encodeOut ep a pid data
  | .busReset => [0x40]
  | .busSuspend => [0x41]
  | .resume => [0x42]
  | .rxd0Low => [0x43]
  | .rxd1Low => [0x44]
  | .poll uart => [0x48, encodeFlag uart]
  | .tick => [0x80]
  | .enq b => [0x81, b]
  | .emptyQuery => [0x82]

/-! ### The table's words -/

/-- The bytes that stand for a word of the table: an OP8 row's code with operands of zeros (three at most: an address, a PID
and a byte count, and a count of zero asks for no more); a SETUP_KEY32 row's key as
the first four bytes of a packet whose other bytes are zero (wIndex = 0, wLength = 0), in a SETUP to address 0. -/
def tableBytes (nbits w : Nat) : List Byte :=
  if nbits = 8 then [BitVec.ofNat 8 w, 0, 0, 0]
  else if nbits = 32 then
    [0x30, 0x00, 0x08, BitVec.ofNat 8 w, BitVec.ofNat 8 (w / 256), BitVec.ofNat 8 (w / 65536),
      BitVec.ofNat 8 (w / 16777216), 0, 0, 0, 0]
  else []

/-- The instruction this decoder reads from a word of the opcode table. -/
def decodeTableWord (nbits w : Nat) : Option Instr :=
  if w < 2 ^ nbits then
    match decode (tableBytes nbits w) with
    | .ok (i, _) => some i
    | .error _ => none
  else none

end Sys2Proof
end

