-- ==== Sys2Proof/Machine/State.lean ====
section
/-! DEFINITION. The state of the core (10_state.md), as plain data, and its value at power-on (R145, R146). -/

namespace Sys2Proof.Machine

/-! ### Endpoint register file (R23 to R26) -/

/-- Response mode: the handshake an endpoint half gives to a token (R17, R23). -/
inductive Mode where
  | ack | nak | stall
  deriving DecidableEq, Repr

/-- One direction of an endpoint: its mode and its toggle (R23, C5). -/
structure Half where
  mode : Mode
  tog : Pid
  deriving DecidableEq, Repr

/-- A register pair with buffers: ep[0], ep[1], ep[2]. `tx` is the IN half, `rx` the OUT half. -/
structure Endpoint where
  tx : Half
  rx : Half
  txLen : Nat
  rxLen : Nat
  deriving DecidableEq, Repr

/-- ep[3], which "holds txMode, rxMode, txTog and rxTog only" (R25). -/
structure HalfPair where
  tx : Half
  rx : Half
  deriving DecidableEq, Repr

/-- The endpoint numbers of the register file (R23). -/
inductive EpNum where
  | ep0 | ep1 | ep2 | ep3
  deriving DecidableEq, Repr

/-- IN half or OUT half. -/
inductive Dir where
  | tx | rx
  deriving DecidableEq, Repr

/-! ### Session and control transfer (R21, R28) -/

/-- DeviceSessionState and its staging field (R21). -/
structure Sess where
  addr : DevAddr
  pendAddr : DevAddr
  cfg : BitVec 1
  suspended : Bool
  deriving DecidableEq, Repr

/-- The bus-level state, a function of `sess` (R22). -/
inductive BusState where
  | default | addressed | configured
  deriving DecidableEq, Repr

/-- The table a TransferCursor reads (R28). -/
inductive CursorSrc where
  | none | dev | cfg | str (i : Byte) | lc
  deriving DecidableEq, Repr

/-- TransferCursor (R28). `off` and `remaining` are UInt16, and neither can overflow (R142). -/
structure Cursor where
  src : CursorSrc
  off : Nat
  remaining : Nat
  deriving DecidableEq, Repr

/-- The empty cursor (NONE, 0, 0). -/
def Cursor.empty : Cursor := ⟨.none, 0, 0⟩

/-- The observational control-transfer stage (R28, R30). -/
inductive Stage where
  | idle | dataIn | dataOut | statusIn | stalled
  deriving DecidableEq, Repr

/-- Control-transfer state (R28). -/
structure Ctl where
  setup : Option SetupRequest
  pendReq : Byte
  cur : Cursor
  stage : Stage
  deriving DecidableEq, Repr

/-! ### Bridge and line coding (R31, R33, R34) -/

/-- The transmit side of the bridge, but for the ring storage `tx.buf`, which is the space RING (R31). -/
structure TxRing where
  w : Nat
  r : Nat
  pend : Nat
  busy : Bool
  timeout : Nat
  deriving DecidableEq, Repr

/-- RxByteCounter (R33). -/
structure RxCounter where
  count : Nat
  off : Nat
  deriving DecidableEq, Repr

/-- The LineCoding record (R34, R62): `lc[0..4)` is `dwDTERate`, little-endian; the other bytes follow in order. -/
structure LineCoding where
  dwDTERate : BitVec 32
  bCharFormat : Byte
  bParityType : Byte
  bDataBits : Byte
  deriving DecidableEq, Repr

/-! ### Power controller (R35) -/

inductive PwrState where
  | run | drainWait | halt | exited
  deriving DecidableEq, Repr

/-- What started the suspend sequence. -/
inductive Origin where
  | bus | feature
  deriving DecidableEq, Repr

inductive WakeSrc where
  | usb | rxd0 | rxd1
  deriving DecidableEq, Repr

/-- The wake-arming register, a subset of {USB, RXD0, RXD1}. -/
structure WakeArm where
  usb : Bool
  rxd0 : Bool
  rxd1 : Bool
  deriving DecidableEq, Repr

structure Pwr where
  state : PwrState
  origin : Origin
  wakeArm : WakeArm
  deriving DecidableEq, Repr

/-! ### Memory (R39) -/

/-- The spaces the core writes byte by byte, each a list of (offset, byte) in rising order of offset. An offset that is
not listed has not been written since power-on; what it reads as is `Machine.State.memRead`'s to say. The space LC is `State.lc`, and
DEV, CFG and STR(i) are read-only and stand in `State.par`. -/
structure Memory where
  ep0tx : List Host.Cell
  ep0rx : List Host.Cell
  ep1tx : List Host.Cell
  ep2rx : List Host.Cell
  ep2tx : List Host.Cell
  ring : List Host.Cell
  deriving DecidableEq, Repr

/-! ### Results, faults, outputs -/

/-- The FAIL kinds (R81, R130). -/
inductive FailKind where
  | malformedRequest | unsupportedRequest | unsupportedEndpoint
  deriving DecidableEq, Repr

/-- The outcome of a Setup request handler (R15, R81). -/
inductive SetupResult where
  | ok (n : Nat)
  | fail (k : FailKind)
  | sleep
  | noReturn
  deriving DecidableEq, Repr

/-- FaultKind (R37, R132). An operation raises a fault by setting the sticky mark `State.fault`, which is a next state;
every operation after it answers `Outcome.fault` with the mark, since "no operation has a step" (R37, R133). Safe: the
model stops where the source gives no meaning. -/
inductive Fault where
  /-- Enqueue into a full ring (R114). Raised by `execEnq`. Safe. -/
  | txOverflow
  /-- A token to an undeclared endpoint, or a data packet longer than 64 bytes (R73). Raised by the token operations
  and by `execSetup`. Safe. -/
  | hostContract
  /-- A sync-OK SET_LINE_CODING data packet whose length is not 7 (R106). Raised by `execOutEp0`. Safe. -/
  | hostLineCodingLength
  deriving DecidableEq, Repr

/-- Why there is no step. -/
inductive Refusal where
  /-- An instruction without a meaning yet. Answered by `exec` alone. Safe. -/
  | notModelled (mnemonic : String)
  /-- The next bytes are no operation (R67: "a model refuses them"), or nobody has issued one. Answered by `step`. Safe. -/
  | undecodable (why : DecodeError)
  /-- R124 gives the operation "no step" in the present power state (DRAIN_WAIT, HALT). Answered by the gates of
  Machine/Ops.lean. Safe: "an environment must not issue it". -/
  | notEnabled
  /-- The core has left for the bootloader, and "no operation has a step" (R103, R124, R133). Answered by the gates. Safe. -/
  | exited
  deriving DecidableEq, Repr

/-- The bus response to a host token (R140). -/
inductive Response where
  | none | ack | nak | stall
  | data (pid : Pid) (bytes : List Byte)
  deriving DecidableEq, Repr

/-- An output of the core (R140). -/
inductive Event where
  | response (r : Response)
  | byteReceived (b : Byte)
  | powerDown
  | bootloaderJump
  | emptyResult (b : Bool)
  deriving DecidableEq, Repr

/-! ### The whole -/

/-- `UsbController`: everything the spec gives the machine, and three fields of the model's own. -/
structure State where
  /-- The OPEN parameters of the run, and with them the read-only spaces DEV, CFG and STR(i) (R9, R39, R145). -/
  par : Params
  sess : Sess
  ep0 : Endpoint
  ep1 : Endpoint
  ep2 : Endpoint
  ep3 : HalfPair
  ctl : Ctl
  tx : TxRing
  rx : RxCounter
  lc : LineCoding
  pwr : Pwr
  mem : Memory
  /-- The sticky fault mark (R37). -/
  fault : Option Fault
  /-- Model's own: the kind of the last FAIL, "for models that record the kind" (R130). No operation reads it. -/
  lastFail : Option FailKind
  /-- Model's own: the outputs of R140 so far, oldest first. No operation reads it. -/
  out : List Event
  /-- Model's own: the operations issued on the interface and not yet taken, as bytes (R68, 95 section 0). -/
  input : List Byte
  deriving DecidableEq, Repr

/-- A half that NAKs, toggle 0, and one that ACKs, toggle 0 (R26). -/
def Half.nakReset : Half := ⟨.nak, .data0⟩
def Half.ackReset : Half := ⟨.ack, .data0⟩

/-- The initial line coding: 57600 baud, 1 stop bit, no parity, 8 data bits (R34). -/
def LineCoding.initial : LineCoding := ⟨57600, 0, 0, 8⟩

/-- Nothing has been written: R145 "unspecified". -/
def Memory.unwritten : Memory := ⟨[], [], [], [], [], []⟩

/-- The power-on state with given parameters (R145, R146), with no output made and no operation issued. -/
def State.powerOn (p : Params) : State where
  par := p
  sess := ⟨0, 0, 0, false⟩
  ep0 := ⟨.nakReset, .ackReset, 0, 0⟩
  ep1 := ⟨.nakReset, .nakReset, 0, 0⟩
  ep2 := ⟨.nakReset, .ackReset, 0, 0⟩
  ep3 := ⟨.nakReset, .nakReset⟩
  ctl := ⟨none, 0xFF, .empty, .idle⟩
  tx := ⟨0, 0, 0, false, 0⟩
  rx := ⟨0, 0⟩
  lc := .initial
  pwr := ⟨.run, .bus, ⟨false, false, false⟩⟩
  mem := .unwritten
  fault := none
  lastFail := none
  out := []
  input := []

/-- The machine at power-on. -/
def State.reset : State := State.powerOn Config.params

end Sys2Proof.Machine
end

