-- ==== Sys2Proof/Machine/Operands.lean ====
section
/-! DEFINITION. Operand forms: the endpoint index of a feature request (R61) and the half it names (R89), the table a
GET_DESCRIPTOR selects (R59), the accessors of the register file and the addresses the platform gives it (R46), and the
line-coding record as bytes (R62). -/

namespace Sys2Proof.Machine

/-- One half of the register file (R23). -/
def State.half (n : EpNum) (d : Dir) (s : State) : Half :=
  match n, d with
  | .ep0, .tx => s.ep0.tx
  | .ep0, .rx => s.ep0.rx
  | .ep1, .tx => s.ep1.tx
  | .ep1, .rx => s.ep1.rx
  | .ep2, .tx => s.ep2.tx
  | .ep2, .rx => s.ep2.rx
  | .ep3, .tx => s.ep3.tx
  | .ep3, .rx => s.ep3.rx

/-- Write one half. -/
def State.setHalf (n : EpNum) (d : Dir) (h : Half) (s : State) : State :=
  match n, d with
  | .ep0, .tx => { s with ep0 := { s.ep0 with tx := h } }
  | .ep0, .rx => { s with ep0 := { s.ep0 with rx := h } }
  | .ep1, .tx => { s with ep1 := { s.ep1 with tx := h } }
  | .ep1, .rx => { s with ep1 := { s.ep1 with rx := h } }
  | .ep2, .tx => { s with ep2 := { s.ep2 with tx := h } }
  | .ep2, .rx => { s with ep2 := { s.ep2 with rx := h } }
  | .ep3, .tx => { s with ep3 := { s.ep3 with tx := h } }
  | .ep3, .rx => { s with ep3 := { s.ep3 with rx := h } }

/-- `ep[n].txLen`. ep[3] has none (R26 "n/a"); no operation reads it. -/
def State.txLen (n : EpNum) (s : State) : Nat :=
  match n with
  | .ep0 => s.ep0.txLen
  | .ep1 => s.ep1.txLen
  | .ep2 => s.ep2.txLen
  | .ep3 => 0

/-- Write `ep[n].rxLen`. ep[3] has none. -/
def State.setRxLen (n : EpNum) (len : Nat) (s : State) : State :=
  match n with
  | .ep0 => { s with ep0 := { s.ep0 with rxLen := len } }
  | .ep1 => { s with ep1 := { s.ep1 with rxLen := len } }
  | .ep2 => { s with ep2 := { s.ep2 with rxLen := len } }
  | .ep3 => s

/-- `ep[n].autoTog`, a constant (R76). -/
def autoTog : EpNum → Bool
  | .ep0 => false
  | .ep1 => true
  | .ep2 => true
  | .ep3 => false

/-! ### Addresses of buffers and registers (R46) -/

/-- The registers of an endpoint register pair (R23). -/
inductive EpReg where
  | txMode | rxMode | txTog | rxTog | txLen | rxLen | autoTog
  deriving DecidableEq, Repr

/-- What EP_ADDR_MAP places: the endpoint buffers, the endpoint registers, and the device address register (R46, R137). -/
inductive Mapped where
  | buffer (sp : Space)
  | register (n : EpNum) (r : EpReg)
  | devAddr
  deriving DecidableEq, Repr

/-- The place of a register of ep[0], ep[1] or ep[2]. -/
def epRegPlace (m : EpRegisterMap) : EpReg → Nat
  | .txMode => m.txMode
  | .rxMode => m.rxMode
  | .txTog => m.txTog
  | .rxTog => m.rxTog
  | .txLen => m.txLen
  | .rxLen => m.rxLen
  | .autoTog => m.autoTog

/-- The place of a register of ep[3]; it has no length and no autoTog register (R25). -/
def pairRegPlace (m : PairRegisterMap) : EpReg → Option Nat
  | .txMode => some m.txMode
  | .rxMode => some m.rxMode
  | .txTog => some m.txTog
  | .rxTog => some m.rxTog
  | .txLen => none
  | .rxLen => none
  | .autoTog => none

/-- The place of an endpoint buffer; a space that is no endpoint buffer has none. -/
def bufferPlace (m : EpAddrMap) : Space → Option Nat
  | .ep0tx => some m.ep0tx
  | .ep0rx => some m.ep0rx
  | .ep1tx => some m.ep1tx
  | .ep2rx => some m.ep2rx
  | .ep2tx => some m.ep2tx
  | .ring => none
  | .lc => none
  | .dev => none
  | .cfg => none
  | .str _ => none

/-- The place of a buffer or register, counted in words. -/
def mappedPlace (m : EpAddrMap) : Mapped → Option Nat
  | .buffer sp => bufferPlace m sp
  | .register .ep0 r => some (epRegPlace m.ep0 r)
  | .register .ep1 r => some (epRegPlace m.ep1 r)
  | .register .ep2 r => some (epRegPlace m.ep2 r)
  | .register .ep3 r => pairRegPlace m.ep3 r
  | .devAddr => some m.devAddr

/-- The bytes of a word of the platform. -/
def wordBytes (m : EpAddrMap) : Nat := m.wordBytesPred + 1

/-- The byte address of a buffer or register (R46). "No rule of the core computes or reads an address". -/
def epAddr (p : Params) (u : Mapped) : Option Nat := (mappedPlace p.epAddrMap u).map (· * wordBytes p.epAddrMap)

/-! ### Feature indices and descriptors -/

/-- `half(x)` of R89, for exactly the endpoint indices R61 accepts; `none` for every other index. -/
def halfOfIndex (x : Byte) : Option (EpNum × Dir) :=
  if x = 0x81 then some (.ep1, .tx)
  else if x = 0x82 then some (.ep2, .tx)
  else if x = 0x83 then some (.ep3, .tx)
  else if x = 0x01 then some (.ep1, .rx)
  else if x = 0x02 then some (.ep2, .rx)
  else if x = 0x03 then some (.ep3, .rx)
  else none

/-- The table GET_DESCRIPTOR reads (R59, R96); `none` where R96 fails. -/
def descriptorSrc (p : Params) (r : SetupRequest) : Option CursorSrc :=
  if r.wValueH = 0x01 then some .dev
  else if r.wValueH = 0x02 then some .cfg
  else if r.wValueH = 0x03 then (if (strDesc p r.wValueL).isSome then some (.str r.wValueL) else none)
  else none

/-- `space(src)` of R85. The cursor (NONE, 0, 0) reads nothing. -/
def spaceOf : CursorSrc → Option Space
  | .none => none
  | .dev => some .dev
  | .cfg => some .cfg
  | .str i => some (.str i)
  | .lc => some .lc

/-- The seven bytes of a line-coding record (R62). -/
def LineCoding.bytes (l : LineCoding) : List Byte :=
  [byteOf32 l.dwDTERate 0, byteOf32 l.dwDTERate 1, byteOf32 l.dwDTERate 2, byteOf32 l.dwDTERate 3,
    l.bCharFormat, l.bParityType, l.bDataBits]

/-- The record whose byte i is `f i` (R62). -/
def LineCoding.ofBytes (f : Nat → Byte) : LineCoding := ⟨le32 (f 0) (f 1) (f 2) (f 3), f 4, f 5, f 6⟩

/-- The clamp of R106: a baud above 999999 becomes 57600; the other bytes stay as sent (R160). -/
def LineCoding.clamp (l : LineCoding) : LineCoding :=
  if l.dwDTERate.toNat > baudMax then { l with dwDTERate := baudDefault } else l

/-- A wake source in the wake-arming register (R123). -/
def WakeArm.holds (w : WakeArm) : WakeSrc → Bool
  | .usb => w.usb
  | .rxd0 => w.rxd0
  | .rxd1 => w.rxd1

/-- {USB, RXD0, RXD1} (R122). -/
def WakeArm.all : WakeArm := ⟨true, true, true⟩

/-- ∅. -/
def WakeArm.none : WakeArm := ⟨false, false, false⟩

/-- The code of a FAIL kind (R130, the spec's own numbering). -/
def FailKind.code : FailKind → Nat
  | .malformedRequest => 1
  | .unsupportedRequest => 2
  | .unsupportedEndpoint => 3

/-- The code of a fault (R132, the spec's own numbering). -/
def Fault.code : Fault → Nat
  | .txOverflow => 1
  | .hostContract => 2
  | .hostLineCodingLength => 3

end Sys2Proof.Machine
end

