-- ==== Sys2Proof/Machine/Flags.lean ====
section
/-! DEFINITION. The conditions the rules compute: sync-OK (R75), the bus state (R22), the drain condition (R115), the stage a
successful Setup step enters (R30), and which requests continue a cursor (R105). -/

namespace Sys2Proof.Machine

/-- sync-OK: the packet's PID is the toggle the half expects (R75). -/
def syncOk (pid : Pid) (h : Half) : Bool := pid == h.tog

/-- The bus-level state (R22). -/
def busState (s : Sess) : BusState :=
  if s.cfg = 1 then .configured else if s.addr ≠ 0 then .addressed else .default

/-- The TX step's gate, "only when the device is in CONFIGURED state": `sess.cfg = 1` (R22, R115). -/
def configured (s : Sess) : Bool := s.cfg == 1

/-- The timeout counter after the TX step's count, modulo 2^W_TO (R115, R158). -/
def countedTimeout (p : Params) (t : TxRing) : Nat :=
  if t.pend > 0 then (t.timeout + 1) % 2 ^ wTo p else t.timeout

/-- The drain condition, on the counter already counted (R115). -/
def drainDue (t : TxRing) : Bool := !t.busy && t.pend > 0 && (t.pend ≥ txThreshold || t.timeout > txTimeout)

/-- The bytes a drain moves: `min(tx.pend, TXCAP − tx.r, 64)` (R115). -/
def drainLen (p : Params) (t : TxRing) : Nat := min (min t.pend (txcap p - t.r)) maxPkt

/-- The stage after OK, by request (R30): GET_DESCRIPTOR, GET_CONFIGURATION, GET_STATUS and GET_LINE_CODING enter DATA_IN and
SET_LINE_CODING enters DATA_OUT when wLength > 0; any other case enters STATUS_IN. -/
def stageAfterOk (r : SetupRequest) : Stage :=
  if r.wLength = 0 then .statusIn
  else if isStandard r then
    (if r.bRequest = 0x00 ∨ r.bRequest = 0x06 ∨ r.bRequest = 0x08 then .dataIn else .statusIn)
  else if r.bRequest = 0x21 then .dataIn
  else if r.bRequest = 0x20 then .dataOut
  else .statusIn

/-- GET_DESCRIPTOR and GET_LINE_CODING continue the cursor on an IN completion (R105, D17). -/
def continuesCursor (pendReq : Byte) : Bool := pendReq == 0x06 || pendReq == 0x21

end Sys2Proof.Machine
end

