-- ==== Sys2Proof/Machine/Ops.lean ====
section
/-! DEFINITION. The operations the meanings share: memory, outputs, the Setup step's two responses (the core's exception
entry, R83, and its success, R82), the cursor, the fault mark, the suspend sequence and its return (R121, R123), the
completion handlers' parts, the bus reset (R144), and the gates of R124. -/

namespace Sys2Proof.Machine

/-! ### Memory (R39, R43) -/

/-- The byte listed at an offset. -/
def cellsGet (x : Nat) : List Host.Cell → Option Byte
  | [] => none
  | (k, v) :: t => if k = x then some v else cellsGet x t

/-- List a byte at an offset, in the place the rising order gives it. -/
def cellsPut (x : Nat) (b : Byte) : List Host.Cell → List Host.Cell
  | [] => [(x, b)]
  | (k, v) :: t => if x < k then (x, b) :: (k, v) :: t else if x = k then (x, b) :: t else (k, v) :: cellsPut x b t

/-- List bytes at consecutive offsets, one byte after the other (R43). -/
def cellsPutAll (x : Nat) : List Byte → List Host.Cell → List Host.Cell
  | [], l => l
  | b :: bs, l => cellsPutAll (x + 1) bs (cellsPut x b l)

/-- The listed bytes of a space the core writes; LC, DEV, CFG and STR(i) are held elsewhere. -/
def Memory.cells (m : Memory) : Space → List Host.Cell
  | .ep0tx => m.ep0tx
  | .ep0rx => m.ep0rx
  | .ep1tx => m.ep1tx
  | .ep2rx => m.ep2rx
  | .ep2tx => m.ep2tx
  | .ring => m.ring
  | .lc => []
  | .dev => []
  | .cfg => []
  | .str _ => []

/-- Write bytes into a space. No operation writes DEV, CFG or STR(i) (R41), and LC is written whole (R106). -/
def Memory.write (sp : Space) (x : Nat) (bs : List Byte) (m : Memory) : Memory :=
  match sp with
  | .ep0tx => { m with ep0tx := cellsPutAll x bs m.ep0tx }
  | .ep0rx => { m with ep0rx := cellsPutAll x bs m.ep0rx }
  | .ep1tx => { m with ep1tx := cellsPutAll x bs m.ep1tx }
  | .ep2rx => { m with ep2rx := cellsPutAll x bs m.ep2rx }
  | .ep2tx => { m with ep2tx := cellsPutAll x bs m.ep2tx }
  | .ring => { m with ring := cellsPutAll x bs m.ring }
  | .lc => m
  | .dev => m
  | .cfg => m
  | .str _ => m

/-- The size of a space the core writes byte by byte (R39). -/
def ramSize (p : Params) : Space → Nat
  | .ring => txcap p
  | .ep0tx => 64
  | .ep0rx => 64
  | .ep1tx => 64
  | .ep2rx => 64
  | .ep2tx => 64
  | .lc => 0
  | .dev => 0
  | .cfg => 0
  | .str _ => 0

/-- The canonical form of one space: offsets strictly rising from `lo` on, all below `size`. -/
def cellsWf (size : Nat) : Nat → List Host.Cell → Bool
  | _, [] => true
  | lo, (k, _) :: t => lo ≤ k && k < size && cellsWf size (k + 1) t

/-- The canonical form of memory. An unlisted offset is one that has not been written, so no listed byte can equal what
an unlisted offset holds. -/
def Memory.wf (p : Params) (m : Memory) : Bool :=
  cellsWf (ramSize p .ep0tx) 0 m.ep0tx && cellsWf (ramSize p .ep0rx) 0 m.ep0rx && cellsWf (ramSize p .ep1tx) 0 m.ep1tx &&
  cellsWf (ramSize p .ep2rx) 0 m.ep2rx && cellsWf (ramSize p .ep2tx) 0 m.ep2tx && cellsWf (ramSize p .ring) 0 m.ring

/-- The bytes of a space that is a table: LC, DEV, CFG, STR(i) (R39). The spaces the core writes byte by byte have none. -/
def State.table (sp : Space) (s : State) : List Byte :=
  match sp with
  | .lc => s.lc.bytes
  | .dev => s.par.devDesc
  | .cfg => cfgDesc s.par
  | .str i => (strDesc s.par i).getD []
  | .ep0tx => []
  | .ep0rx => []
  | .ep1tx => []
  | .ep2rx => []
  | .ep2tx => []
  | .ring => []

/-- The byte the model knows to stand at an offset: listed in the table, or written since power-on. -/
def State.known (sp : Space) (x : Nat) (s : State) : Option Byte :=
  match (s.table sp)[x]? with
  | some b => some b
  | none => cellsGet x (s.mem.cells sp)

/-- `MemRead(space, x, 1)` (R12). A byte nothing has written since power-on is a free value (R145, I4 to I6). -/
def State.memRead (sp : Space) (x : Nat) (s : State) : Byte := (s.known sp x).getD (Config.powerOnByte sp x)

/-- `MemRead(space, x, n)` (R12), byte by byte (R43). -/
def State.memReadN (sp : Space) (x n : Nat) (s : State) : List Byte := (List.range n).map fun i => s.memRead sp (x + i)

/-- `MemWrite(space, x, |bs|, bs)` (R12). -/
def State.memWrite (sp : Space) (x : Nat) (bs : List Byte) (s : State) : State := { s with mem := s.mem.write sp x bs }

/-! ### Outputs and the fault mark -/

/-- `emit E` (R12, R140). -/
def State.emit (e : Event) (s : State) : State := { s with out := s.out ++ [e] }

/-- `respond H` (R12). -/
def State.respond (h : Response) (s : State) : State := s.emit (.response h)

/-- `raise FAULT(kind)`: set the sticky mark (R12, R37). -/
def State.raise (k : Fault) (s : State) : State := { s with fault := some k }

/-! ### The Setup step's responses -/

/-- `SetupOK(n)` (R82), with the stage R30 gives. -/
def setupOk (n : Nat) (stage : Stage) (s : State) : State :=
  { s with
    ep0 := { s.ep0 with tx := ⟨.ack, .data1⟩, rx := ⟨.ack, .data1⟩, txLen := n }
    ctl := { s.ctl with stage := stage } }

/-- `SetupFail(kind)` (R83): the one response to every protocol error. -/
def setupFail (k : FailKind) (s : State) : State :=
  { s with
    ep0 := { s.ep0 with tx := ⟨.stall, .data1⟩, rx := ⟨.stall, .data1⟩ }
    ctl := { s.ctl with pendReq := noRequest, stage := .stalled }
    lastFail := some k }

/-! ### The TransferCursor -/

/-- `CursorOpen(src, L)` (R84). -/
def cursorOpen (r : SetupRequest) (src : CursorSrc) (len : Nat) (s : State) : State :=
  { s with ctl := { s.ctl with cur := ⟨src, 0, min r.wLength.toNat len⟩ } }

/-- The bytes the cursor's next packet holds (R85). -/
def cursorBytes (n : Nat) (s : State) : List Byte :=
  match spaceOf s.ctl.cur.src with
  | some sp => s.memReadN sp s.ctl.cur.off n
  | none => []

/-- The length of the cursor's next packet: `min(remaining, 64)` (R85). -/
def cursorLen (s : State) : Nat := min s.ctl.cur.remaining maxPkt

/-- `CursorLoad()` but for its return value, which is `cursorLen` (R85). -/
def cursorLoad (s : State) : State :=
  let n := cursorLen s
  { s with
    mem := s.mem.write .ep0tx 0 (cursorBytes n s)
    ctl := { s.ctl with cur := { s.ctl.cur with off := s.ctl.cur.off + n, remaining := s.ctl.cur.remaining - n } } }

/-- The length of the table a cursor reads. -/
def tableLen (src : CursorSrc) (s : State) : Nat :=
  match spaceOf src with
  | some sp => (s.table sp).length
  | none => 0

/-- Open a cursor over a whole table and load its first packet (R96, R101). -/
def startCursor (r : SetupRequest) (src : CursorSrc) (s : State) : SetupResult × State :=
  let s1 := cursorOpen r src (tableLen src s) s
  (.ok (cursorLen s1), cursorLoad s1)

/-! ### The suspend sequence (file 46) -/

/-- `SuspEnter(origin)` (R121). -/
def suspEnter (o : Origin) (s : State) : State :=
  { s.emit .powerDown with
    sess := { s.sess with suspended := true }
    pwr := { s.pwr with origin := o, state := .drainWait } }

/-- The end of the drain spin: arm the wake sources and halt (R122). -/
def haltNow (s : State) : State := { s with pwr := { s.pwr with wakeArm := .all, state := .halt } }

/-- The return from the halt: `Wake(src)` once the source is armed (R123). -/
def wakeNow (s : State) : State :=
  let s1 := { s with sess := { s.sess with suspended := false }, pwr := { s.pwr with wakeArm := .none, state := .run } }
  if s.pwr.origin = .feature then setupOk 0 .statusIn s1 else s1

/-- `Wake(src)` in HALT (R123). -/
def wake (src : WakeSrc) (s : State) : State := if s.pwr.wakeArm.holds src then wakeNow s else s

/-! ### The Setup step -/

/-- The first part of the Setup step: accept the packet and empty the cursor (R79). -/
def acceptSetup (data : List Byte) (s : State) : State :=
  let s1 := (s.respond .ack).memWrite .ep0rx 0 data
  { s1 with ep0 := { s1.ep0 with rxLen := data.length }, ctl := { s1.ctl with cur := .empty } }

/-- Apply a handler's result (R79). -/
def finishSetup (r : SetupRequest) (p : SetupResult × State) : State :=
  match p.1 with
  | .ok n => setupOk n (stageAfterOk r) p.2
  | .fail k => setupFail k p.2
  | .sleep => suspEnter .feature p.2
  | .noReturn => p.2

/-- A request handler: it reads the decoded packet and the state the Setup step has prepared (R81). -/
abbrev Handler := SetupRequest → State → SetupResult × State

/-- The Setup step of an accepted 8-byte packet, by a given handler (R79). -/
def acceptedRequest (r : SetupRequest) (h : Handler) (s : State) : State :=
  let s1 := acceptSetup (packetBytes r) s
  finishSetup r (h r { s1 with ctl := { s1.ctl with setup := some r, pendReq := r.bRequest } })

/-- The SETUP transaction of an 8-byte packet in RUN: address filter (R72), then the Setup step. -/
def requestTransaction (a : DevAddr) (r : SetupRequest) (h : Handler) (s : State) : State :=
  if a ≠ s.sess.addr then s.respond .none else acceptedRequest r h s

/-- The handler of every row that fails as UNSUPPORTED_REQUEST (R88, R95, R96, R98, R99, R104). -/
def handleUnsupported : Handler := fun _ s => (.fail .unsupportedRequest, s)

/-! ### Tokens (file 40) -/

/-- The automatic advance of a toggle (R76). -/
def advance (n : EpNum) (d : Dir) (s : State) : State :=
  if autoTog n then s.setHalf n d ⟨(s.half n d).mode, flipPid (s.half n d).tog⟩ else s

/-- An IN transaction in RUN (R74). `sp` is EPnTX and `complete` the handler of R77. -/
def inTransaction (n : EpNum) (sp : Space) (complete : State → State) (a : DevAddr) (acks : Bool) (s : State) : State :=
  if a ≠ s.sess.addr then s.respond .none
  else match (s.half n .tx).mode with
    | .stall => s.respond .stall
    | .nak => s.respond .nak
    | .ack =>
      let s1 := s.respond (.data (s.half n .tx).tog (s.memReadN sp 0 (s.txLen n)))
      if acks then complete (advance n .tx s1) else s1

/-- An accepted OUT packet (R75): the buffer and the length take it, it is acknowledged, and a sync-OK packet advances an
automatic toggle; then the handler of R77 runs. -/
def acceptOut (n : EpNum) (sp : Space) (complete : Bool → State → State) (pid : Pid) (data : List Byte) (s : State) : State :=
  let ok := syncOk pid (s.half n .rx)
  let s1 := ((s.memWrite sp 0 data).setRxLen n data.length).respond .ack
  complete ok (if ok then advance n .rx s1 else s1)

/-- An OUT transaction in RUN (R75). `sp` is EPnRX. -/
def outTransaction (n : EpNum) (sp : Space) (complete : Bool → State → State) (a : DevAddr) (pid : Pid) (data : List Byte)
    (s : State) : State :=
  if a ≠ s.sess.addr then s.respond .none
  else if data.length > maxPkt then s.raise .hostContract
  else match (s.half n .rx).mode with
    | .stall => s.respond .stall
    | .nak => s.respond .nak
    | .ack => acceptOut n sp complete pid data s

/-- A token in RUN to an endpoint the descriptor does not declare (R73): the address filter comes first (R72). -/
def undeclaredToken (a : DevAddr) (s : State) : State :=
  if a ≠ s.sess.addr then s.respond .none else s.raise .hostContract

/-! ### Bus reset -/

/-- The bus reset (R144). -/
def busResetNow (s : State) : State :=
  { s with
    sess := ⟨0, 0, 0, false⟩
    ep0 := ⟨.nakReset, .ackReset, 0, 0⟩
    ep1 := ⟨.nakReset, .nakReset, 0, 0⟩
    ep2 := ⟨.nakReset, .ackReset, 0, 0⟩
    ep3 := ⟨.nakReset, .nakReset⟩
    tx := { s.tx with busy := false }
    rx := ⟨0, 0⟩
    ctl := ⟨none, noRequest, .empty, .idle⟩ }

/-! ### The gates of R124 -/

/-- The outcome of an operation. -/
abbrev Result := Host.Outcome State Fault Refusal

/-- "Once it is set, no operation has a step" (R37): the mark answers for every operation. -/
def unlessFaulted (s : State) (k : Result) : Result :=
  match s.fault with
  | some f => .fault f
  | none => k

/-- The SETUP row of R124. -/
def setupGate (run : State → State) (s : State) : Result :=
  unlessFaulted s <| match s.pwr.state with
    | .run => .next (run s)
    | .drainWait => .refused .notEnabled
    | .halt => .next ((wake .usb s).respond .none)
    | .exited => .refused .exited

/-- The IN and OUT row of R124. -/
def tokenGate (a : DevAddr) (run : State → State) (s : State) : Result :=
  unlessFaulted s <| match s.pwr.state with
    | .run => .next (run s)
    | .drainWait => .next (s.respond (if a = s.sess.addr then .nak else .none))
    | .halt => .next ((wake .usb s).respond .none)
    | .exited => .refused .exited

/-- The rows of RESUME, RXD0LOW and RXD1LOW in R124. -/
def wakeGate (src : WakeSrc) (s : State) : Result :=
  unlessFaulted s <| match s.pwr.state with
    | .run => .next s
    | .drainWait => .next s
    | .halt => .next (wake src s)
    | .exited => .refused .exited

/-- The main-loop row of R124. -/
def mainGate (run : State → State) (s : State) : Result :=
  unlessFaulted s <| match s.pwr.state with
    | .run => .next (run s)
    | .drainWait => .refused .notEnabled
    | .halt => .refused .notEnabled
    | .exited => .refused .exited

end Sys2Proof.Machine
end

