-- ==== Sys2Proof/Machine/BusEvents.lean ====
section
/-! DEFINITION. The bus events and the power controller's operations (46_power.md, R144), each with its row of R124. -/

namespace Sys2Proof.Machine

/-- BUS_RESET (R144); in HALT the wake runs first, in the same step (R124). -/
def execBusReset (s : State) : Result :=
  unlessFaulted s <| match s.pwr.state with
    | .run => .next (busResetNow s)
    | .drainWait => .refused .notEnabled
    | .halt => .next (busResetNow (wake .usb s))
    | .exited => .refused .exited

/-- BUS_SUSPEND (R121, origin BUS); no effect in HALT (R124). -/
def execBusSuspend (s : State) : Result :=
  unlessFaulted s <| match s.pwr.state with
    | .run => .next (suspEnter .bus s)
    | .drainWait => .refused .notEnabled
    | .halt => .next s
    | .exited => .refused .exited

/-- RESUME (R123). -/
def execResume (s : State) : Result := wakeGate .usb s

/-- RXD0LOW (R123). -/
def execRxd0Low (s : State) : Result := wakeGate .rxd0 s

/-- RXD1LOW (R123). -/
def execRxd1Low (s : State) : Result := wakeGate .rxd1 s

/-- POLL (R122); `uart` is the sample of `uartTxBusy` (R36). -/
def execPoll (uart : Bool) (s : State) : Result :=
  unlessFaulted s <| match s.pwr.state with
    | .run => .next s
    | .drainWait => .next (if uart then s else haltNow s)
    | .halt => .next s
    | .exited => .refused .exited

end Sys2Proof.Machine
end

