-- ==== Sys2Proof/Machine/MainLoop.lean ====
section
/-! DEFINITION. The main-loop operations of the CDC bridge: the tick (R118), enqueue (R114) and the empty query (R117). -/

namespace Sys2Proof.Machine

/-- The RX step (R112). -/
def rxStep (s : State) : State :=
  if s.rx.count > 0 then
    let s1 := s.emit (.byteReceived (s.memRead .ep2rx s.rx.off))
    { s1 with
      rx := ⟨s.rx.count - 1, s.rx.off + 1⟩
      ep2 := if s.rx.count - 1 = 0 then { s1.ep2 with rx := ⟨.ack, s1.ep2.rx.tog⟩ } else s1.ep2 }
  else s

/-- Arm a bulk-IN packet of `drainLen` bytes (R115). -/
def drain (s : State) : State :=
  let n := drainLen s.par s.tx
  { s with
    mem := s.mem.write .ep2tx 0 (s.memReadN .ring s.tx.r n)
    tx := ⟨s.tx.w, (s.tx.r + n) % txcap s.par, s.tx.pend - n, true, 0⟩
    ep2 := { s.ep2 with txLen := n, tx := ⟨.ack, s.ep2.tx.tog⟩ } }

/-- The TX step (R115). -/
def txStep (s : State) : State :=
  if configured s.sess then
    let s1 := { s with tx := { s.tx with timeout := countedTimeout s.par s.tx } }
    if drainDue s1.tx then drain s1 else s1
  else s

/-- The write of one byte into the ring (R114). -/
def enqueue (b : Byte) (s : State) : State :=
  { s.memWrite .ring s.tx.w [b] with
    tx := { s.tx with w := (s.tx.w + 1) % txcap s.par, pend := s.tx.pend + 1 } }

/-- TICK: the RX step, then the TX step (R118). -/
def execTick (s : State) : Result := mainGate (fun s => txStep (rxStep s)) s

/-- ENQ (R114). -/
def execEnq (b : Byte) (s : State) : Result :=
  mainGate (fun s => if s.tx.pend = txcap s.par then s.raise .txOverflow else enqueue b s) s

/-- EMPTY_QUERY: its result is an output (R117, R140). -/
def execEmptyQuery (s : State) : Result := mainGate (fun s => s.emit (.emptyResult (s.tx.pend == 0))) s

end Sys2Proof.Machine
end

