-- ==== Sys2Proof/Machine/ClassRequests.lean ====
section
/-! DEFINITION. The class and vendor requests (43_class_vendor_requests.md): their handlers, the non-standard half of the
dispatcher (R80), and the meaning of each row. -/

namespace Sys2Proof.Machine

/-- SET_LINE_CODING at the Setup stage; the record is written by the data stage (R100, R106). -/
def handleSetLineCoding : Handler := fun _ s => (.ok 0, s)

/-- GET_LINE_CODING (R101). -/
def handleGetLineCoding : Handler := fun r s => startCursor r .lc s

/-- SET_CONTROL_LINE_STATE: acknowledged, no state change (R102). -/
def handleSetControlLineState : Handler := fun _ s => (.ok 0, s)

/-- RESET_DEVICE_TO_BOOTLOADER (R103). -/
def handleBootloader : Handler := fun _ s =>
  (.noReturn, { s.emit .bootloaderJump with pwr := { s.pwr with state := .exited } })

/-- The non-standard dispatcher (R80), and R104 for every other code. -/
def dispatchNonStandard : Handler := fun r s =>
  if r.bRequest = 0x20 then handleSetLineCoding r s
  else if r.bRequest = 0x21 then handleGetLineCoding r s
  else if r.bRequest = 0x22 then handleSetControlLineState r s
  else if r.bRequest = 0x65 then handleBootloader r s
  else handleUnsupported r s

/-! ### The rows -/

/-- SET_LINE_CODING (R100). -/
def execSetLineCoding (a : DevAddr) (r : SetupRequest) (s : State) : Result :=
  setupGate (requestTransaction a r handleSetLineCoding) s

/-- GET_LINE_CODING (R101). -/
def execGetLineCoding (a : DevAddr) (r : SetupRequest) (s : State) : Result :=
  setupGate (requestTransaction a r handleGetLineCoding) s

/-- SET_CONTROL_LINE_STATE (R102). -/
def execSetControlLineState (a : DevAddr) (r : SetupRequest) (s : State) : Result :=
  setupGate (requestTransaction a r handleSetControlLineState) s

/-- RESET_DEVICE_TO_BOOTLOADER (R103). -/
def execResetDeviceToBootloader (a : DevAddr) (r : SetupRequest) (s : State) : Result :=
  setupGate (requestTransaction a r handleBootloader) s

/-- NONSTD_UNSUPPORTED (R104). -/
def execNonstdUnsupported (a : DevAddr) (r : SetupRequest) (s : State) : Result :=
  setupGate (requestTransaction a r handleUnsupported) s

end Sys2Proof.Machine
end

