-- ==== Sys2Proof/Machine/StandardRequests.lean ====
section
/-! DEFINITION. The standard requests (42_standard_requests.md): a handler for each rule, whole with its own checks, the
standard half of the dispatcher (R80), and the meaning of each row. -/

namespace Sys2Proof.Machine

/-- GET_STATUS (R87). -/
def handleGetStatus : Handler := fun r s => (.ok (min r.wLength.toNat 2), s.memWrite .ep0tx 0 [0x00, 0x00])

/-- CLEAR_FEATURE, device recipient (R90). -/
def handleClearFeatureDevice : Handler := fun r s =>
  (if wValue r ≠ 0x0001 then .fail .unsupportedRequest
   else if !wakeAdvertised s.par then .fail .unsupportedRequest
   else .ok 0, s)

/-- The endpoint feature requests but for the mode they write (R91, R93). -/
def handleEndpointFeature (mode : Dir → Mode) : Handler := fun r s =>
  if wValue r ≠ 0x0000 then (.fail .unsupportedRequest, s)
  else match halfOfIndex r.wIndexL with
    | none => (.fail .unsupportedEndpoint, s)
    | some (n, d) => (.ok 0, s.setHalf n d ⟨mode d, .data0⟩)

/-- CLEAR_FEATURE(ENDPOINT_HALT): an IN half goes to NAK, an OUT half to ACK (R91). -/
def handleClearFeatureEndpoint : Handler :=
  handleEndpointFeature fun d => match d with
    | .tx => .nak
    | .rx => .ack

/-- SET_FEATURE(DEVICE_REMOTE_WAKEUP), the device-sleep command (R92). -/
def handleSetFeatureDevice : Handler := fun r s =>
  (if wValue r ≠ 0x0001 then .fail .unsupportedRequest
   else if !wakeAdvertised s.par then .fail .unsupportedRequest
   else .sleep, s)

/-- SET_FEATURE(ENDPOINT_HALT) (R93). -/
def handleSetFeatureEndpoint : Handler := handleEndpointFeature fun _ => .stall

/-- Recipient routing of CLEAR_FEATURE (R88). -/
def handleClearFeature : Handler := fun r s =>
  if recipient r = 0 then handleClearFeatureDevice r s
  else if recipient r = 2 then handleClearFeatureEndpoint r s
  else (.fail .unsupportedRequest, s)

/-- Recipient routing of SET_FEATURE (R88). -/
def handleSetFeature : Handler := fun r s =>
  if recipient r = 0 then handleSetFeatureDevice r s
  else if recipient r = 2 then handleSetFeatureEndpoint r s
  else (.fail .unsupportedRequest, s)

/-- SET_ADDRESS: stage the address (R95). -/
def handleSetAddress : Handler := fun r s =>
  if r.wValueH ≠ 0 ∨ r.wValueL.toNat > 127 then (.fail .unsupportedRequest, s)
  else (.ok 0, { s with sess := { s.sess with pendAddr := r.wValueL.setWidth 7 } })

/-- GET_DESCRIPTOR (R96). -/
def handleGetDescriptor : Handler := fun r s =>
  match descriptorSrc s.par r with
  | some src => startCursor r src s
  | none => (.fail .unsupportedRequest, s)

/-- GET_CONFIGURATION (R97). -/
def handleGetConfiguration : Handler := fun r s =>
  (.ok (min r.wLength.toNat 1), s.memWrite .ep0tx 0 [bitByte s.sess.cfg])

/-- SET_CONFIGURATION (R98). -/
def handleSetConfiguration : Handler := fun r s =>
  if r.wValueL.toNat > 1 then (.fail .unsupportedRequest, s)
  else (.ok 0, { s with sess := { s.sess with cfg := r.wValueL.setWidth 1 } })

/-- The standard dispatcher (R80), and R99 for every other code. -/
def dispatchStandard : Handler := fun r s =>
  if r.bRequest = 0x00 then handleGetStatus r s
  else if r.bRequest = 0x01 then handleClearFeature r s
  else if r.bRequest = 0x03 then handleSetFeature r s
  else if r.bRequest = 0x05 then handleSetAddress r s
  else if r.bRequest = 0x06 then handleGetDescriptor r s
  else if r.bRequest = 0x08 then handleGetConfiguration r s
  else if r.bRequest = 0x09 then handleSetConfiguration r s
  else handleUnsupported r s

/-! ### The rows -/

/-- GET_STATUS (R87). -/
def execGetStatus (a : DevAddr) (r : SetupRequest) (s : State) : Result :=
  setupGate (requestTransaction a r handleGetStatus) s

/-- CLEAR_FEATURE_DEVICE (R90). -/
def execClearFeatureDevice (a : DevAddr) (r : SetupRequest) (s : State) : Result :=
  setupGate (requestTransaction a r handleClearFeatureDevice) s

/-- CLEAR_FEATURE_ENDPOINT (R91). -/
def execClearFeatureEndpoint (a : DevAddr) (r : SetupRequest) (s : State) : Result :=
  setupGate (requestTransaction a r handleClearFeatureEndpoint) s

/-- CLEAR_FEATURE_BAD: a recipient or a selector R88, R90 or R91 rejects. -/
def execClearFeatureBad (a : DevAddr) (r : SetupRequest) (s : State) : Result :=
  setupGate (requestTransaction a r handleUnsupported) s

/-- SET_FEATURE_DEVICE (R92). -/
def execSetFeatureDevice (a : DevAddr) (r : SetupRequest) (s : State) : Result :=
  setupGate (requestTransaction a r handleSetFeatureDevice) s

/-- SET_FEATURE_ENDPOINT (R93). -/
def execSetFeatureEndpoint (a : DevAddr) (r : SetupRequest) (s : State) : Result :=
  setupGate (requestTransaction a r handleSetFeatureEndpoint) s

/-- SET_FEATURE_BAD: a recipient or a selector R88, R92 or R93 rejects. -/
def execSetFeatureBad (a : DevAddr) (r : SetupRequest) (s : State) : Result :=
  setupGate (requestTransaction a r handleUnsupported) s

/-- SET_ADDRESS (R95). -/
def execSetAddress (a : DevAddr) (r : SetupRequest) (s : State) : Result :=
  setupGate (requestTransaction a r handleSetAddress) s

/-- SET_ADDRESS_BAD: wValueH ≠ 0 or wValueL > 127 (R95). -/
def execSetAddressBad (a : DevAddr) (r : SetupRequest) (s : State) : Result :=
  setupGate (requestTransaction a r handleUnsupported) s

/-- GET_DESCRIPTOR_DEVICE (R96). -/
def execGetDescriptorDevice (a : DevAddr) (r : SetupRequest) (s : State) : Result :=
  setupGate (requestTransaction a r handleGetDescriptor) s

/-- GET_DESCRIPTOR_CONFIG (R96). -/
def execGetDescriptorConfig (a : DevAddr) (r : SetupRequest) (s : State) : Result :=
  setupGate (requestTransaction a r handleGetDescriptor) s

/-- GET_DESCRIPTOR_STRING (R96); an index outside STR_DESC fails. -/
def execGetDescriptorString (a : DevAddr) (r : SetupRequest) (s : State) : Result :=
  setupGate (requestTransaction a r handleGetDescriptor) s

/-- GET_DESCRIPTOR_BAD: a descriptor type other than 1, 2 and 3 (R96). -/
def execGetDescriptorBad (a : DevAddr) (r : SetupRequest) (s : State) : Result :=
  setupGate (requestTransaction a r handleUnsupported) s

/-- GET_CONFIGURATION (R97). -/
def execGetConfiguration (a : DevAddr) (r : SetupRequest) (s : State) : Result :=
  setupGate (requestTransaction a r handleGetConfiguration) s

/-- SET_CONFIGURATION (R98). -/
def execSetConfiguration (a : DevAddr) (r : SetupRequest) (s : State) : Result :=
  setupGate (requestTransaction a r handleSetConfiguration) s

/-- SET_CONFIGURATION_BAD: wValueL > 1 (R98). -/
def execSetConfigurationBad (a : DevAddr) (r : SetupRequest) (s : State) : Result :=
  setupGate (requestTransaction a r handleUnsupported) s

/-- STD_UNSUPPORTED (R99). -/
def execStdUnsupported (a : DevAddr) (r : SetupRequest) (s : State) : Result :=
  setupGate (requestTransaction a r handleUnsupported) s

end Sys2Proof.Machine
end

