-- ==== Sys2Proof/Machine/Tokens.lean ====
section
/-! DEFINITION. The token operations: SETUP (R79), IN (R74) and OUT (R75) with the completion handlers of files 44 and 45, and
the tokens to undeclared endpoints (R73). -/

namespace Sys2Proof.Machine

/-! ### SETUP -/

/-- `Dispatch(req)` (R80): route by the type field. -/
def dispatchRequest : Handler := fun r s => if isStandard r then dispatchStandard r s else dispatchNonStandard r s

/-- The SETUP transaction in RUN, for a packet of any length (R79). -/
def setupTransaction (a : DevAddr) (data : List Byte) (s : State) : State :=
  if a ≠ s.sess.addr then s.respond .none
  else if data.length > maxPkt then s.raise .hostContract
  else match packetOf data with
    | some r => acceptedRequest r dispatchRequest s
    | none => setupFail .malformedRequest (acceptSetup data s)

/-- SETUP (R79). -/
def execSetup (a : DevAddr) (data : List Byte) (s : State) : Result := setupGate (setupTransaction a data) s

/-- SETUP_UNDECLARED_EP: a SETUP token to an endpoint other than 0 (R73, C11). -/
def execSetupUndeclaredEp (_ep : BitVec 4) (a : DevAddr) (_data : List Byte) (s : State) : Result :=
  setupGate (undeclaredToken a) s

/-! ### IN completions -/

/-- The end of a status stage (R105). -/
def statusDone (s : State) : State := if s.ctl.stage = .statusIn then { s with ctl := { s.ctl with stage := .idle } } else s

/-- The cursor branch of R105. -/
def continueCursor (s : State) : State :=
  let s1 := cursorLoad s
  { s1 with ep0 := { s1.ep0 with txLen := cursorLen s, tx := ⟨s1.ep0.tx.mode, flipPid s1.ep0.tx.tog⟩ } }

/-- The SET_ADDRESS branch of R105. -/
def latchAddress (s : State) : State :=
  { s with
    sess := { s.sess with addr := s.sess.pendAddr }
    ep0 := { s.ep0 with tx := ⟨.nak, s.ep0.tx.tog⟩, rx := ⟨.ack, s.ep0.rx.tog⟩ } }

/-- EP0 closes: `txLen <- 0`, tx NAK, rx ACK (R105, R107). -/
def closeEp0 (s : State) : State :=
  { s with ep0 := { s.ep0 with txLen := 0, tx := ⟨.nak, s.ep0.tx.tog⟩, rx := ⟨.ack, s.ep0.rx.tog⟩ } }

/-- EP0 IN completion (R105). -/
def ep0InComplete (s : State) : State :=
  statusDone (if continuesCursor s.ctl.pendReq then continueCursor s else if s.ctl.pendReq = 0x05 then latchAddress s else closeEp0 s)

/-- EP1 IN completion (R109). -/
def ep1InComplete (s : State) : State :=
  { s with ep1 := { s.ep1 with txLen := 0, tx := ⟨.nak, s.ep1.tx.tog⟩ } }

/-- EP2 IN completion (R110). -/
def ep2InComplete (s : State) : State :=
  { s with ep2 := { s.ep2 with txLen := 0, tx := ⟨.nak, s.ep2.tx.tog⟩ }, tx := { s.tx with busy := false } }

/-- IN_EP0 (R74, R105). -/
def execInEp0 (a : DevAddr) (acks : Bool) (s : State) : Result :=
  tokenGate a (inTransaction .ep0 .ep0tx ep0InComplete a acks) s

/-- IN_EP1 (R74, R109). -/
def execInEp1 (a : DevAddr) (acks : Bool) (s : State) : Result :=
  tokenGate a (inTransaction .ep1 .ep1tx ep1InComplete a acks) s

/-- IN_EP2 (R74, R110). -/
def execInEp2 (a : DevAddr) (acks : Bool) (s : State) : Result :=
  tokenGate a (inTransaction .ep2 .ep2tx ep2InComplete a acks) s

/-- IN_UNDECLARED_EP (R73). -/
def execInUndeclaredEp (_ep : BitVec 4) (a : DevAddr) (_acks : Bool) (s : State) : Result :=
  tokenGate a (undeclaredToken a) s

/-! ### OUT completions -/

/-- The commit of a SET_LINE_CODING record of seven bytes (R106). -/
def commitLineCoding (s : State) : State :=
  { s with
    lc := (LineCoding.ofBytes fun i => s.memRead .ep0rx i).clamp
    ep0 := { s.ep0 with txLen := 0, tx := ⟨.ack, s.ep0.tx.tog⟩ }
    ctl := { s.ctl with stage := if s.ctl.stage = .dataOut then .statusIn else s.ctl.stage } }

/-- EP0 OUT completion while `pendReq = 0x20` (R106). -/
def lineCodingData (sync : Bool) (s : State) : State :=
  if !sync then s
  else if s.ep0.rxLen ≠ lcLen then s.raise .hostLineCodingLength
  else commitLineCoding s

/-- EP0 OUT completion while `pendReq ≠ 0x20`: the status stage of an IN transfer (R107). -/
def statusOut (s : State) : State :=
  let s1 := closeEp0 s
  if s.ctl.stage = .dataIn ∨ s.ctl.stage = .statusIn then { s1 with ctl := { s1.ctl with stage := .idle } } else s1

/-- EP0 OUT completion (R77). -/
def ep0OutComplete (sync : Bool) (s : State) : State :=
  if s.ctl.pendReq = 0x20 then lineCodingData sync s else statusOut s

/-- EP2 OUT completion: the backpressure (R111). -/
def ep2OutComplete (sync : Bool) (s : State) : State :=
  if sync then
    { s with rx := ⟨s.ep2.rxLen, 0⟩, ep2 := { s.ep2 with rx := ⟨.nak, s.ep2.rx.tog⟩ } }
  else s

/-- OUT_EP0 (R75, R106, R107). -/
def execOutEp0 (a : DevAddr) (pid : Pid) (data : List Byte) (s : State) : Result :=
  tokenGate a (outTransaction .ep0 .ep0rx ep0OutComplete a pid data) s

/-- OUT_EP2 (R75, R111). -/
def execOutEp2 (a : DevAddr) (pid : Pid) (data : List Byte) (s : State) : Result :=
  tokenGate a (outTransaction .ep2 .ep2rx ep2OutComplete a pid data) s

/-- OUT_UNDECLARED_EP (R73). -/
def execOutUndeclaredEp (_ep : BitVec 4) (a : DevAddr) (_pid : Pid) (_data : List Byte) (s : State) : Result :=
  tokenGate a (undeclaredToken a) s

end Sys2Proof.Machine
end

