-- ==== Sys2Proof/Machine/Dispatch.lean ====
section
/-! DEFINITION. One arm for each row of spec/opcode_table.json, in the table's order. -/

namespace Sys2Proof.Machine

def exec (i : Instr) (s : State) : Host.Outcome State Fault Refusal :=
  match i with
  | .getStatus a r => Sys2Proof.Machine.execGetStatus a r s
  | .clearFeatureDevice a r => Sys2Proof.Machine.execClearFeatureDevice a r s
  | .clearFeatureEndpoint a r => Sys2Proof.Machine.execClearFeatureEndpoint a r s
  | .clearFeatureBad a r => Sys2Proof.Machine.execClearFeatureBad a r s
  | .setFeatureDevice a r => Sys2Proof.Machine.execSetFeatureDevice a r s
  | .setFeatureEndpoint a r => Sys2Proof.Machine.execSetFeatureEndpoint a r s
  | .setFeatureBad a r => Sys2Proof.Machine.execSetFeatureBad a r s
  | .setAddress a r => Sys2Proof.Machine.execSetAddress a r s
  | .setAddressBad a r => Sys2Proof.Machine.execSetAddressBad a r s
  | .getDescriptorDevice a r => Sys2Proof.Machine.execGetDescriptorDevice a r s
  | .getDescriptorConfig a r => Sys2Proof.Machine.execGetDescriptorConfig a r s
  | .getDescriptorString a r => Sys2Proof.Machine.execGetDescriptorString a r s
  | .getDescriptorBad a r => Sys2Proof.Machine.execGetDescriptorBad a r s
  | .getConfiguration a r => Sys2Proof.Machine.execGetConfiguration a r s
  | .setConfiguration a r => Sys2Proof.Machine.execSetConfiguration a r s
  | .setConfigurationBad a r => Sys2Proof.Machine.execSetConfigurationBad a r s
  | .stdUnsupported a r => Sys2Proof.Machine.execStdUnsupported a r s
  | .setLineCoding a r => Sys2Proof.Machine.execSetLineCoding a r s
  | .getLineCoding a r => Sys2Proof.Machine.execGetLineCoding a r s
  | .setControlLineState a r => Sys2Proof.Machine.execSetControlLineState a r s
  | .resetDeviceToBootloader a r => Sys2Proof.Machine.execResetDeviceToBootloader a r s
  | .nonstdUnsupported a r => Sys2Proof.Machine.execNonstdUnsupported a r s
  | .setup a data => Sys2Proof.Machine.execSetup a data s
  | .setupUndeclaredEp ep a data => Sys2Proof.Machine.execSetupUndeclaredEp ep a data s
  | .inEp0 a acks => Sys2Proof.Machine.execInEp0 a acks s
  | .inEp1 a acks => Sys2Proof.Machine.execInEp1 a acks s
  | .inEp2 a acks => Sys2Proof.Machine.execInEp2 a acks s
  | .inUndeclaredEp ep a acks => Sys2Proof.Machine.execInUndeclaredEp ep a acks s
  | .outEp0 a pid data => Sys2Proof.Machine.execOutEp0 a pid data s
  | .outEp2 a pid data => Sys2Proof.Machine.execOutEp2 a pid data s
  | .outUndeclaredEp ep a pid data => Sys2Proof.Machine.execOutUndeclaredEp ep a pid data s
  | .busReset => Sys2Proof.Machine.execBusReset s
  | .busSuspend => Sys2Proof.Machine.execBusSuspend s
  | .resume => Sys2Proof.Machine.execResume s
  | .rxd0Low => Sys2Proof.Machine.execRxd0Low s
  | .rxd1Low => Sys2Proof.Machine.execRxd1Low s
  | .poll uart => Sys2Proof.Machine.execPoll uart s
  | .tick => Sys2Proof.Machine.execTick s
  | .enq b => Sys2Proof.Machine.execEnq b s
  | .emptyQuery => Sys2Proof.Machine.execEmptyQuery s

end Sys2Proof.Machine
end

