-- ==== Sys2Proof/Machine/Step.lean ====
section
/-! DEFINITION. One step: take the next operation issued on the interface and run it. The core has no program counter (R20);
its behaviour is a sequence of atomic operations, interleaved one at a time (R14, R50). -/

namespace Sys2Proof.Machine

/-- Take the next operation from `input` and run it; bytes that are no operation are refused (R67). -/
def step (s : State) : Host.Outcome State Fault Refusal :=
  match decode s.input with
  | .ok (i, rest) => exec i { s with input := rest }
  | .error e => .refused (.undecodable e)

/-- `s` with one word of the opcode table issued next: the bytes of that operation, in front of those already waiting.
Bytes that do not decode are placed as they are. -/
def State.withFetchWord (s : State) (nbits w : Nat) : State :=
  match decode (tableBytes nbits w) with
  | .ok (_, rest) => { s with input := (tableBytes nbits w).take ((tableBytes nbits w).length - rest.length) ++ s.input }
  | .error _ => { s with input := tableBytes nbits w ++ s.input }

end Sys2Proof.Machine
end

