-- ==== Sys2Proof/Safety.lean ====
section
/-! DEFINITION. The terms in which claims about runs are written: when a host token is taken (RUN, addressed, no fault mark),
scripts of operations, the invariants of 10_state.md, and which operations may write what (R27, R78). -/

namespace Sys2Proof.Machine

/-! ### Where an operation runs -/

/-- The core is in normal operation and has not been stopped by a fault (R35, R37). -/
abbrev Running (s : State) : Prop := s.fault = none ∧ s.pwr.state = .run

/-- The core is running and the token carries its address (R72). -/
abbrev Addressed (a : DevAddr) (s : State) : Prop := s.fault = none ∧ s.pwr.state = .run ∧ a = s.sess.addr

/-- The state `s` with the memory `m`: what its bytes read as is `(withMem m s).memRead`. -/
abbrev withMem (m : Memory) (s : State) : State := { s with mem := m }

/-- Running a script, one operation after the other (R14, R50); it ends at the first operation that has no step. -/
def execAll : List Instr → State → Result
  | [], s => .next s
  | i :: is, s =>
    match exec i s with
    | .next t => execAll is t
    | .fault f => .fault f
    | .refused r => .refused r

/-! ### Pseudo-operations of R70 -/

/-- `ENQS b1 .. bk`. -/
def enqs (bs : List Byte) : List Instr := bs.map .enq

/-- `TICK xN`. -/
def ticks (n : Nat) : List Instr := List.replicate n .tick

/-- `CTRL_NODATA a <setup>`. -/
def ctrlNoData (a : DevAddr) (r : SetupRequest) : List Instr := [decodeRequest a r, .inEp0 a true]

/-- `CTRL_WRITE a <setup> <bytes>`. -/
def ctrlWrite (a : DevAddr) (r : SetupRequest) (bytes : List Byte) : List Instr :=
  [decodeRequest a r, .outEp0 a .data1 bytes, .inEp0 a true]

/-- `CTRL_READ a <setup>` with k INs before the status stage. -/
def ctrlRead (a : DevAddr) (r : SetupRequest) (k : Nat) : List Instr :=
  decodeRequest a r :: (List.replicate k (.inEp0 a true) ++ [.outEp0 a .data1 []])

/-- How many INs CTRL_READ sends when the answer has `total` bytes: until the host has wLength bytes or a short packet arrives (R70,
R86). -/
def readIns (r : SetupRequest) (total : Nat) : Nat :=
  total / maxPkt + if total % maxPkt ≠ 0 ∨ total < r.wLength.toNat then 1 else 0

/-! ### Contexts -/

/-- The execution contexts of R134. -/
inductive Context where
  | isr | mainLoop
  deriving DecidableEq, Repr

/-! ### Invariants -/

/-- The ring invariant (R32) and the domains of R31. -/
structure RingInv (s : State) : Prop where
  w_lt : s.tx.w < txcap s.par
  r_lt : s.tx.r < txcap s.par
  pend_le : s.tx.pend ≤ txcap s.par
  pend_mod : s.tx.pend % txcap s.par = (s.tx.w + txcap s.par - s.tx.r) % txcap s.par
  timeout_lt : s.tx.timeout < 2 ^ wTo s.par

/-- The domains of the lengths and counters (R23, R33), and the cursor's bound (R29). -/
structure LengthInv (s : State) : Prop where
  tx0 : s.ep0.txLen ≤ 64
  tx1 : s.ep1.txLen ≤ 64
  tx2 : s.ep2.txLen ≤ 64
  rx0 : s.ep0.rxLen ≤ 64
  rx1 : s.ep1.rxLen ≤ 64
  rx2 : s.ep2.rxLen ≤ 64
  rxBytes : s.rx.off + s.rx.count ≤ 64
  cursor : s.ctl.cur.off + s.ctl.cur.remaining ≤ tableLen s.ctl.cur.src s

/-- What the power state says of the wake-arming register, of `suspended` and of the request that put the core to sleep
(R121, R122, R123). -/
structure PowerInv (s : State) : Prop where
  armed : s.pwr.state = .halt → s.pwr.wakeArm = .all
  unarmed : s.pwr.state ≠ .halt → s.pwr.wakeArm = .none
  suspended : s.sess.suspended = true ↔ (s.pwr.state = .drainWait ∨ s.pwr.state = .halt)
  sleeping : (s.pwr.state = .drainWait ∨ s.pwr.state = .halt) → s.pwr.origin = .feature → s.ctl.pendReq = 0x03

/-- What the endpoint modes say: EP1 IN is never ACK (R109), an armed bulk-IN packet is marked busy and holds a byte (R115), and
EP0 IN is not ACK after a failure or a bus reset (R105). -/
structure EndpointInv (s : State) : Prop where
  ep1 : s.ep1.tx.mode ≠ .ack
  ep2 : s.ep2.tx.mode = .ack → s.tx.busy = true ∧ 1 ≤ s.ep2.txLen
  ep0 : s.ctl.pendReq = 0xFF → s.ep0.tx.mode ≠ .ack

/-- The bytes below `n` of a space are known: none of them is a free value. -/
def knownBelow (sp : Space) (n : Nat) (s : State) : Prop := ∀ x, x < n → (s.known sp x).isSome = true

/-- "No rule reads such a value before it is written" (R145): the bytes an IN would send, the bytes the RX step would
deliver and the bytes the drain would move have all been written. -/
structure WrittenInv (s : State) : Prop where
  ep0 : knownBelow .ep0tx s.ep0.txLen s
  ep1 : s.ep1.txLen = 0
  ep2 : knownBelow .ep2tx s.ep2.txLen s
  rx : s.rx.count > 0 → knownBelow .ep2rx (s.rx.off + s.rx.count) s
  ring : ∀ k, k < s.tx.pend → (s.known .ring ((s.tx.r + k) % txcap s.par)).isSome = true

/-- The invariant of the machine. -/
structure MachineInv (s : State) : Prop where
  mem : s.mem.wf s.par = true
  ring : RingInv s
  len : LengthInv s
  power : PowerInv s
  endpoint : EndpointInv s
  written : WrittenInv s

/-- The device address of a host token (R71); the other operations carry none. -/
def tokenAddr : Instr → Option DevAddr
  | .getStatus a _ => some a
  | .clearFeatureDevice a _ => some a
  | .clearFeatureEndpoint a _ => some a
  | .clearFeatureBad a _ => some a
  | .setFeatureDevice a _ => some a
  | .setFeatureEndpoint a _ => some a
  | .setFeatureBad a _ => some a
  | .setAddress a _ => some a
  | .setAddressBad a _ => some a
  | .getDescriptorDevice a _ => some a
  | .getDescriptorConfig a _ => some a
  | .getDescriptorString a _ => some a
  | .getDescriptorBad a _ => some a
  | .getConfiguration a _ => some a
  | .setConfiguration a _ => some a
  | .setConfigurationBad a _ => some a
  | .stdUnsupported a _ => some a
  | .setLineCoding a _ => some a
  | .getLineCoding a _ => some a
  | .setControlLineState a _ => some a
  | .resetDeviceToBootloader a _ => some a
  | .nonstdUnsupported a _ => some a
  | .setup a _ => some a
  | .setupUndeclaredEp _ a _ => some a
  | .inEp0 a _ => some a
  | .inEp1 a _ => some a
  | .inEp2 a _ => some a
  | .inUndeclaredEp _ a _ => some a
  | .outEp0 a _ _ => some a
  | .outEp2 a _ _ => some a
  | .outUndeclaredEp _ a _ _ => some a
  | .busReset => none
  | .busSuspend => none
  | .resume => none
  | .rxd0Low => none
  | .rxd1Low => none
  | .poll _ => none
  | .tick => none
  | .enq _ => none
  | .emptyQuery => none

/-- What an IN or OUT issued in DRAIN_WAIT is answered, and what the other operations of that state output: nothing (R124). -/
def drainAnswer (addr : DevAddr) (i : Instr) : List Event :=
  match tokenAddr i with
  | some a => [.response (if a = addr then .nak else .none)]
  | none => []

/-- What the operation that ends a halt outputs: a host token gets the response none (R124). -/
def wakeAnswer (w : Instr) : List Event :=
  match tokenAddr w with
  | some _ => [.response .none]
  | none => []

/-- The rows of R124's table. -/
inductive OpClass where
  | setup | token | reset | suspend | resume | rxd0 | rxd1 | poll | mainLoop
  deriving DecidableEq, Repr

/-- The row of R124 an operation falls under. -/
def opClass : Instr → OpClass
  | .getStatus _ _ => .setup
  | .clearFeatureDevice _ _ => .setup
  | .clearFeatureEndpoint _ _ => .setup
  | .clearFeatureBad _ _ => .setup
  | .setFeatureDevice _ _ => .setup
  | .setFeatureEndpoint _ _ => .setup
  | .setFeatureBad _ _ => .setup
  | .setAddress _ _ => .setup
  | .setAddressBad _ _ => .setup
  | .getDescriptorDevice _ _ => .setup
  | .getDescriptorConfig _ _ => .setup
  | .getDescriptorString _ _ => .setup
  | .getDescriptorBad _ _ => .setup
  | .getConfiguration _ _ => .setup
  | .setConfiguration _ _ => .setup
  | .setConfigurationBad _ _ => .setup
  | .stdUnsupported _ _ => .setup
  | .setLineCoding _ _ => .setup
  | .getLineCoding _ _ => .setup
  | .setControlLineState _ _ => .setup
  | .resetDeviceToBootloader _ _ => .setup
  | .nonstdUnsupported _ _ => .setup
  | .setup _ _ => .setup
  | .setupUndeclaredEp _ _ _ => .setup
  | .inEp0 _ _ => .token
  | .inEp1 _ _ => .token
  | .inEp2 _ _ => .token
  | .inUndeclaredEp _ _ _ => .token
  | .outEp0 _ _ _ => .token
  | .outEp2 _ _ _ => .token
  | .outUndeclaredEp _ _ _ _ => .token
  | .busReset => .reset
  | .busSuspend => .suspend
  | .resume => .resume
  | .rxd0Low => .rxd0
  | .rxd1Low => .rxd1
  | .poll _ => .poll
  | .tick => .mainLoop
  | .enq _ => .mainLoop
  | .emptyQuery => .mainLoop

/-- The context an operation runs in (R134). -/
def contextOf (i : Instr) : Context := if opClass i = .mainLoop then .mainLoop else .isr

/-! ### What a request leaves -/

/-- Of all bytes of all spaces, only EP0RX[0..8) differ between `s` with memory `m` and `s`: they hold the packet (R79). -/
def packetLands (m : Memory) (r : SetupRequest) (s : State) : Prop :=
  ∀ sp x, (withMem m s).memRead sp x =
    if sp = .ep0rx ∧ x < 8 then (packetBytes r).getD x 0 else s.memRead sp x

/-- The packet lands as in `packetLands`, and EP0TX[0..n) holds the bytes `b 0 .. b (n-1)`; nothing else changes. -/
def packetAndAnswerLand (m : Memory) (r : SetupRequest) (n : Nat) (b : Nat → Byte) (s : State) : Prop :=
  ∀ sp x, (withMem m s).memRead sp x =
    if sp = .ep0rx ∧ x < 8 then (packetBytes r).getD x 0
    else if sp = .ep0tx ∧ x < n then b x
    else s.memRead sp x

/-- EP0 after SetupOK(n) (R82) in a Setup step of 8 bytes (R79). -/
def ep0Ok (n : Nat) : Endpoint := ⟨⟨.ack, .data1⟩, ⟨.ack, .data1⟩, n, 8⟩

/-- The state after an accepted request without an IN data stage: the token acknowledged, the packet decoded, SetupOK(0). -/
def statusArmed (m : Memory) (r : SetupRequest) (stage : Stage) (s : State) : State :=
  { s with mem := m, out := s.out ++ [.response .ack], ep0 := ep0Ok 0, ctl := ⟨some r, r.bRequest, .empty, stage⟩ }

/-- The request ends in FAIL(k) (R83): the token is acknowledged, EP0 stalls on both halves with both toggles 1, and the
pending request is invalid; nothing else changes but EP0RX, which holds the packet. -/
def requestFails (i : Instr) (r : SetupRequest) (k : FailKind) (s : State) : Prop :=
  ∃ m, exec i s = .next { s with
      mem := m, out := s.out ++ [.response .ack],
      ep0 := ⟨⟨.stall, .data1⟩, ⟨.stall, .data1⟩, s.ep0.txLen, 8⟩,
      ctl := ⟨some r, 0xFF, .empty, .stalled⟩, lastFail := some k } ∧
    packetLands m r s

/-- The request starts a cursor over the table `tbl` (R84, R85): with T = min(wLength, |tbl|), its first min(T, 64) bytes
stand in EP0TX and are armed, and the cursor holds the rest. -/
def cursorStarts (i : Instr) (r : SetupRequest) (src : CursorSrc) (tbl : List Byte) (s : State) : Prop :=
  ∃ m n rest, n = min (min r.wLength.toNat tbl.length) 64 ∧ n + rest = min r.wLength.toNat tbl.length ∧
    exec i s = .next { s with
      mem := m, out := s.out ++ [.response .ack], ep0 := ep0Ok n,
      ctl := ⟨some r, r.bRequest, ⟨src, n, rest⟩, if r.wLength = 0 then .statusIn else .dataIn⟩ } ∧
    packetAndAnswerLand m r n (fun x => tbl.getD x 0) s

/-! ### Who may write what -/

/-- The half an endpoint feature request names (R89). -/
def namesHalf (r : SetupRequest) (n : EpNum) (d : Dir) : Bool := halfOfIndex r.wIndexL == some (n, d)

/-- The requests, and the SETUP operation that carries one, by the packet they carry. -/
def requestOf : Instr → Option (DevAddr × SetupRequest)
  | .getStatus a r => some (a, r)
  | .clearFeatureDevice a r => some (a, r)
  | .clearFeatureEndpoint a r => some (a, r)
  | .clearFeatureBad a r => some (a, r)
  | .setFeatureDevice a r => some (a, r)
  | .setFeatureEndpoint a r => some (a, r)
  | .setFeatureBad a r => some (a, r)
  | .setAddress a r => some (a, r)
  | .setAddressBad a r => some (a, r)
  | .getDescriptorDevice a r => some (a, r)
  | .getDescriptorConfig a r => some (a, r)
  | .getDescriptorString a r => some (a, r)
  | .getDescriptorBad a r => some (a, r)
  | .getConfiguration a r => some (a, r)
  | .setConfiguration a r => some (a, r)
  | .setConfigurationBad a r => some (a, r)
  | .stdUnsupported a r => some (a, r)
  | .setLineCoding a r => some (a, r)
  | .getLineCoding a r => some (a, r)
  | .setControlLineState a r => some (a, r)
  | .resetDeviceToBootloader a r => some (a, r)
  | .nonstdUnsupported a r => some (a, r)
  | .setup a data => (packetOf data).map fun r => (a, r)
  | .setupUndeclaredEp _ _ _ => none
  | .inEp0 _ _ => none
  | .inEp1 _ _ => none
  | .inEp2 _ _ => none
  | .inUndeclaredEp _ _ _ => none
  | .outEp0 _ _ _ => none
  | .outEp2 _ _ _ => none
  | .outUndeclaredEp _ _ _ _ => none
  | .busReset => none
  | .busSuspend => none
  | .resume => none
  | .rxd0Low => none
  | .rxd1Low => none
  | .poll _ => none
  | .tick => none
  | .enq _ => none
  | .emptyQuery => none

/-- An endpoint feature request on the half (n, d) (R91, R93). -/
def featureOn (i : Instr) (n : EpNum) (d : Dir) : Bool :=
  match requestOf i with
  | some (_, r) => isStandard r && (r.bRequest == 0x01 || r.bRequest == 0x03) && recipient r == 2 && namesHalf r n d
  | none => false

end Sys2Proof.Machine
end

