-- ==== Sys2Proof/Certificates/Slice0/Obligations.lean ====
section
/-! DEFINITION. The statements for the provers. Where an operation's result is stated, the next state is written out as an
update of the state before, so that every field not named keeps its value; what memory reads as is said byte by byte. -/

open Sys2Proof Sys2Proof.Machine

/-! ### Encoding and the step -/

/-- The words of an instruction decode to it, with every operand. -/
def Obligations.EncodedInstructionDecodesToItself : Prop :=
  ∀ (i : Instr) (rest : List Byte), WellFormed i = true → decode (encode i ++ rest) = .ok (i, rest)

/-- What decodes is well formed and is the encoding of what it decodes to: no two byte strings are one instruction. -/
def Obligations.DecodedBytesAreTheEncoding : Prop :=
  ∀ (bs rest : List Byte) (i : Instr), decode bs = .ok (i, rest) → WellFormed i = true ∧ bs = encode i ++ rest

/-- The first matching row of the opcode table (R65) and the dispatcher of R80 with the operand checks of file 42 give every
8-byte packet the same meaning, in every state. -/
def Obligations.TableRowAndDispatcherAgree : Prop :=
  ∀ (a : DevAddr) (r : SetupRequest) (s : State), exec (decodeRequest a r) s = exec (.setup a (packetBytes r)) s

/-- The words of a few rows, written out from the packets and codes of 95_test_vectors.md. -/
def Obligations.TableWordsDecodeToTheirRows : Prop :=
  decodeTableWord 32 0x01000680 = some (.getDescriptorDevice 0 ⟨0x80, 0x06, 0x00, 0x01, 0x00, 0x00, 0⟩) ∧
  decodeTableWord 32 0x00050500 = some (.setAddress 0 ⟨0x00, 0x05, 0x05, 0x00, 0x00, 0x00, 0⟩) ∧
  decodeTableWord 32 0x00002060 = some (.setLineCoding 0 ⟨0x60, 0x20, 0x00, 0x00, 0x00, 0x00, 0⟩) ∧
  decodeTableWord 32 0x00002000 = some (.stdUnsupported 0 ⟨0x00, 0x20, 0x00, 0x00, 0x00, 0x00, 0⟩) ∧
  decodeTableWord 8 0x22 = some (.inEp2 0 false) ∧
  decodeTableWord 8 0x02 = some (.outEp2 0 .data0 []) ∧
  decodeTableWord 8 0x40 = some .busReset ∧
  decodeTableWord 8 0x81 = some (.enq 0)

/-- A step takes the operation that stands next on the interface and runs it, with the bytes after it left waiting. -/
def Obligations.StepRunsTheDecodedOperation : Prop :=
  ∀ (s : State) (i : Instr) (rest : List Byte), WellFormed i = true → s.input = encode i ++ rest →
    step s = exec i { s with input := rest }

/-- "Codes 0x10..0x1F, 0x45..0x47, 0x49..0x7F and 0x83..0xFF are unassigned, and a model refuses them" (R68). -/
def Obligations.UnassignedCodesHaveNoStep : Prop :=
  ∀ (s : State) (op : Byte) (rest : List Byte), s.input = op :: rest →
    (0x10 ≤ op.toNat ∧ op.toNat ≤ 0x1F) ∨ (0x45 ≤ op.toNat ∧ op.toNat ≤ 0x47) ∨
      (0x49 ≤ op.toNat ∧ op.toNat ≤ 0x7F) ∨ 0x83 ≤ op.toNat →
    step s = .refused (.undecodable (.unassignedCode op))

/-! ### The endpoint engine -/

/-- R72: a token for another device is answered with none and changes no state, and it is never a fault. -/
def Obligations.ForeignTokenChangesNothing : Prop :=
  ∀ (i : Instr) (a : DevAddr) (s : State), tokenAddr i = some a → Running s → a ≠ s.sess.addr →
    exec i s = .next { s with out := s.out ++ [.response .none] }

/-- R73: each breach of the host contract by an addressed token raises FAULT(HOST_CONTRACT), and nothing else happens. -/
def Obligations.HostContractBreachRaisesTheFault : Prop :=
  ∀ (a : DevAddr) (s : State), Addressed a s →
    (∀ ep acks, ep ≠ 0 → ep ≠ 1 → ep ≠ 2 → exec (.inUndeclaredEp ep a acks) s = .next { s with fault := some .hostContract }) ∧
    (∀ ep pid data, ep ≠ 0 → ep ≠ 2 → exec (.outUndeclaredEp ep a pid data) s = .next { s with fault := some .hostContract }) ∧
    (∀ ep data, ep ≠ 0 → exec (.setupUndeclaredEp ep a data) s = .next { s with fault := some .hostContract }) ∧
    (∀ data : List Byte, data.length > 64 →
      exec (.setup a data) s = .next { s with fault := some .hostContract } ∧
      (∀ pid, exec (.outEp0 a pid data) s = .next { s with fault := some .hostContract }) ∧
      (∀ pid, exec (.outEp2 a pid data) s = .next { s with fault := some .hostContract }))

/-- An IN to a half that NAKs or STALLs is answered by the mode alone, and so is an OUT (R74, R75, D47). -/
def Obligations.NakAndStallAnswersChangeNothing : Prop :=
  ∀ (a : DevAddr) (s : State) (acks : Bool) (pid : Pid) (data : List Byte) (m : Mode) (h : Response),
    Addressed a s → data.length ≤ 64 → (m = .nak ∧ h = .nak ∨ m = .stall ∧ h = .stall) →
    (s.ep0.tx.mode = m → exec (.inEp0 a acks) s = .next { s with out := s.out ++ [.response h] }) ∧
    (s.ep1.tx.mode = m → exec (.inEp1 a acks) s = .next { s with out := s.out ++ [.response h] }) ∧
    (s.ep2.tx.mode = m → exec (.inEp2 a acks) s = .next { s with out := s.out ++ [.response h] }) ∧
    (s.ep0.rx.mode = m → exec (.outEp0 a pid data) s = .next { s with out := s.out ++ [.response h] }) ∧
    (s.ep2.rx.mode = m → exec (.outEp2 a pid data) s = .next { s with out := s.out ++ [.response h] })

/-- An IN whose host ACK is lost sends the armed packet and changes no state (R74, D46), on each declared IN endpoint. -/
def Obligations.LostAckLeavesThePacketArmed : Prop :=
  ∀ (a : DevAddr) (s : State), Addressed a s →
    (s.ep0.tx.mode = .ack → exec (.inEp0 a false) s =
      .next { s with out := s.out ++ [.response (.data s.ep0.tx.tog (s.memReadN .ep0tx 0 s.ep0.txLen))] }) ∧
    (s.ep1.tx.mode = .ack → exec (.inEp1 a false) s =
      .next { s with out := s.out ++ [.response (.data s.ep1.tx.tog (s.memReadN .ep1tx 0 s.ep1.txLen))] }) ∧
    (s.ep2.tx.mode = .ack → exec (.inEp2 a false) s =
      .next { s with out := s.out ++ [.response (.data s.ep2.tx.tog (s.memReadN .ep2tx 0 s.ep2.txLen))] })

/-! ### The Setup stage -/

/-- R79: a SETUP whose packet is not 8 bytes long (and not over 64) ends in FAIL(MALFORMED_REQUEST): the bytes land in EP0RX
and `ctl.setup` is left as it was. An 8-byte SETUP has a next state too. -/
def Obligations.SetupOfWrongLengthFailsAsMalformed : Prop :=
  ∀ (a : DevAddr) (data : List Byte) (s : State), Addressed a s → data.length ≤ 64 →
    (data.length ≠ 8 → ∃ m, exec (.setup a data) s = .next { s with
        mem := m, out := s.out ++ [.response .ack],
        ep0 := ⟨⟨.stall, .data1⟩, ⟨.stall, .data1⟩, s.ep0.txLen, data.length⟩,
        ctl := ⟨s.ctl.setup, 0xFF, .empty, .stalled⟩, lastFail := some .malformedRequest } ∧
      ∀ sp x, (withMem m s).memRead sp x =
        if sp = .ep0rx ∧ x < data.length then data.getD x 0 else s.memRead sp x) ∧
    (data.length = 8 → ∃ t, exec (.setup a data) s = .next t)

/-- R88, R95, R96, R98, R99, R104: every request row that stands for a rejected packet ends in FAIL(UNSUPPORTED_REQUEST). -/
def Obligations.RejectedRequestsFailAsUnsupported : Prop :=
  ∀ (i : Instr) (a : DevAddr) (r : SetupRequest) (s : State), Addressed a s →
    (i = .clearFeatureBad a r ∨ i = .setFeatureBad a r ∨ i = .setAddressBad a r ∨ i = .getDescriptorBad a r ∨
      i = .setConfigurationBad a r ∨ i = .stdUnsupported a r ∨ i = .nonstdUnsupported a r) →
    requestFails i r .unsupportedRequest s

/-- R87: GET_STATUS puts two zero bytes in EP0TX and arms min(wLength, 2) of them. -/
def Obligations.GetStatusArmsTwoZeroBytes : Prop :=
  ∀ (a : DevAddr) (r : SetupRequest) (s : State), WellFormed (.getStatus a r) = true → Addressed a s →
    ∃ m, exec (.getStatus a r) s = .next { s with
        mem := m, out := s.out ++ [.response .ack], ep0 := ep0Ok (min r.wLength.toNat 2),
        ctl := ⟨some r, 0x00, .empty, if r.wLength = 0 then .statusIn else .dataIn⟩ } ∧
      packetAndAnswerLand m r 2 (fun _ => 0x00) s

/-- R90: CLEAR_FEATURE(DEVICE_REMOTE_WAKEUP) is accepted exactly when wake is advertised, and then changes nothing but what
every accepted request changes; another selector with the device recipient fails. -/
def Obligations.ClearDeviceFeatureNeedsAdvertisedWake : Prop :=
  ∀ (a : DevAddr) (r : SetupRequest) (s : State), Addressed a s →
    (WellFormed (.clearFeatureDevice a r) = true → wakeAdvertised s.par = true →
      ∃ m, exec (.clearFeatureDevice a r) s = .next (statusArmed m r .statusIn s) ∧ packetLands m r s) ∧
    (WellFormed (.clearFeatureDevice a r) = true → wakeAdvertised s.par = false →
      requestFails (.clearFeatureDevice a r) r .unsupportedRequest s) ∧
    (WellFormed (.clearFeatureBad a r) = true → recipient r = 0 → requestFails (.clearFeatureBad a r) r .unsupportedRequest s)

/-- R91: CLEAR_FEATURE(ENDPOINT_HALT) sets the named half's toggle to 0 and its mode to NAK (IN) or ACK (OUT), and an index
outside R61's six is FAIL(UNSUPPORTED_ENDPOINT); another selector with the endpoint recipient is FAIL(UNSUPPORTED_REQUEST). -/
def Obligations.ClearEndpointHaltResetsTheNamedHalf : Prop :=
  ∀ (a : DevAddr) (r : SetupRequest) (s : State), Addressed a s →
    let ok := WellFormed (.clearFeatureEndpoint a r) = true
    let i := Instr.clearFeatureEndpoint a r
    (ok → r.wIndexL = 0x81 → ∃ m, packetLands m r s ∧ exec i s =
      .next { statusArmed m r .statusIn s with ep1 := { s.ep1 with tx := ⟨.nak, .data0⟩ } }) ∧
    (ok → r.wIndexL = 0x82 → ∃ m, packetLands m r s ∧ exec i s =
      .next { statusArmed m r .statusIn s with ep2 := { s.ep2 with tx := ⟨.nak, .data0⟩ } }) ∧
    (ok → r.wIndexL = 0x83 → ∃ m, packetLands m r s ∧ exec i s =
      .next { statusArmed m r .statusIn s with ep3 := { s.ep3 with tx := ⟨.nak, .data0⟩ } }) ∧
    (ok → r.wIndexL = 0x01 → ∃ m, packetLands m r s ∧ exec i s =
      .next { statusArmed m r .statusIn s with ep1 := { s.ep1 with rx := ⟨.ack, .data0⟩ } }) ∧
    (ok → r.wIndexL = 0x02 → ∃ m, packetLands m r s ∧ exec i s =
      .next { statusArmed m r .statusIn s with ep2 := { s.ep2 with rx := ⟨.ack, .data0⟩ } }) ∧
    (ok → r.wIndexL = 0x03 → ∃ m, packetLands m r s ∧ exec i s =
      .next { statusArmed m r .statusIn s with ep3 := { s.ep3 with rx := ⟨.ack, .data0⟩ } }) ∧
    (ok → r.wIndexL ∉ [0x81, 0x82, 0x83, 0x01, 0x02, 0x03] → requestFails i r .unsupportedEndpoint s) ∧
    (WellFormed (.clearFeatureBad a r) = true → recipient r = 2 → requestFails (.clearFeatureBad a r) r .unsupportedRequest s)

/-- R93: SET_FEATURE(ENDPOINT_HALT) sets the named half's toggle to 0 and its mode to STALL, and an index outside R61's six is
FAIL(UNSUPPORTED_ENDPOINT); another selector with the endpoint recipient is FAIL(UNSUPPORTED_REQUEST). -/
def Obligations.SetEndpointHaltStallsTheNamedHalf : Prop :=
  ∀ (a : DevAddr) (r : SetupRequest) (s : State), Addressed a s →
    let ok := WellFormed (.setFeatureEndpoint a r) = true
    let i := Instr.setFeatureEndpoint a r
    (ok → r.wIndexL = 0x81 → ∃ m, packetLands m r s ∧ exec i s =
      .next { statusArmed m r .statusIn s with ep1 := { s.ep1 with tx := ⟨.stall, .data0⟩ } }) ∧
    (ok → r.wIndexL = 0x82 → ∃ m, packetLands m r s ∧ exec i s =
      .next { statusArmed m r .statusIn s with ep2 := { s.ep2 with tx := ⟨.stall, .data0⟩ } }) ∧
    (ok → r.wIndexL = 0x83 → ∃ m, packetLands m r s ∧ exec i s =
      .next { statusArmed m r .statusIn s with ep3 := { s.ep3 with tx := ⟨.stall, .data0⟩ } }) ∧
    (ok → r.wIndexL = 0x01 → ∃ m, packetLands m r s ∧ exec i s =
      .next { statusArmed m r .statusIn s with ep1 := { s.ep1 with rx := ⟨.stall, .data0⟩ } }) ∧
    (ok → r.wIndexL = 0x02 → ∃ m, packetLands m r s ∧ exec i s =
      .next { statusArmed m r .statusIn s with ep2 := { s.ep2 with rx := ⟨.stall, .data0⟩ } }) ∧
    (ok → r.wIndexL = 0x03 → ∃ m, packetLands m r s ∧ exec i s =
      .next { statusArmed m r .statusIn s with ep3 := { s.ep3 with rx := ⟨.stall, .data0⟩ } }) ∧
    (ok → r.wIndexL ∉ [0x81, 0x82, 0x83, 0x01, 0x02, 0x03] → requestFails i r .unsupportedEndpoint s) ∧
    (WellFormed (.setFeatureBad a r) = true → recipient r = 2 → requestFails (.setFeatureBad a r) r .unsupportedRequest s)

/-- R94: two endpoint feature requests in a row on the same half, each with its status IN, leave every other half of EP1, EP2
and EP3 as it was, and every field of the bridge. -/
def Obligations.RepeatedEndpointFeatureTouchesOneHalf : Prop :=
  ∀ (a : DevAddr) (r r' : SetupRequest) (s : State) (i i' : Instr) (n : EpNum) (d : Dir),
    (i = .clearFeatureEndpoint a r ∨ i = .setFeatureEndpoint a r) → (i' = .clearFeatureEndpoint a r' ∨ i' = .setFeatureEndpoint a r') →
    WellFormed i = true → WellFormed i' = true → Addressed a s →
    halfOfIndex r.wIndexL = some (n, d) → halfOfIndex r'.wIndexL = some (n, d) →
    ∃ t, execAll [i, .inEp0 a true, i', .inEp0 a true] s = .next t ∧ (t.half n d).tog = .data0 ∧
      t.tx = s.tx ∧ t.rx = s.rx ∧ t.sess = s.sess ∧ t.lc = s.lc ∧
      ∀ n' d', n' ≠ .ep0 → (n', d') ≠ (n, d) → t.half n' d' = s.half n' d'

/-- R95: SET_ADDRESS with wValueH = 0 and wValueL ≤ 127 stages the address and leaves `sess.addr`; with any other value it
is FAIL(UNSUPPORTED_REQUEST). -/
def Obligations.SetAddressStagesTheAddress : Prop :=
  ∀ (a : DevAddr) (r : SetupRequest) (s : State), Addressed a s →
    (WellFormed (.setAddress a r) = true → ∃ m, packetLands m r s ∧ exec (.setAddress a r) s =
      .next { statusArmed m r .statusIn s with sess := { s.sess with pendAddr := r.wValueL.setWidth 7 } }) ∧
    (WellFormed (.setAddressBad a r) = true → requestFails (.setAddressBad a r) r .unsupportedRequest s)

/-- "address is not applied before the status-stage IN token completes" (R72, R95, R105): after SET_ADDRESS, an IN whose ACK is
lost leaves the old address; once the ACK arrives the core answers to the new address alone. -/
def Obligations.AddressLatchesAtTheStatusStage : Prop :=
  ∀ (a b : DevAddr) (r : SetupRequest) (s : State), WellFormed (.setAddress a r) = true → Addressed a s →
    r.wValueL = b.setWidth 8 →
    (∃ t, execAll [.setAddress a r, .inEp0 a false] s = .next t ∧ t.sess.addr = a) ∧
    (∃ t, execAll [.setAddress a r, .inEp0 a false, .inEp0 a true] s = .next t ∧ t.sess.addr = b ∧ t.ctl.stage = .idle ∧
      t.out = s.out ++ [.response .ack, .response (.data .data1 []), .response (.data .data1 [])] ∧
      ∀ c, c ≠ b → exec (.inEp0 c true) t = .next { t with out := t.out ++ [.response .none] })

/-- R96: GET_DESCRIPTOR opens a cursor over the selected table, clipped to wLength, and loads its first packet; a string
index outside STR_DESC, or another descriptor type, is FAIL(UNSUPPORTED_REQUEST). -/
def Obligations.GetDescriptorOpensTheSelectedTable : Prop :=
  ∀ (a : DevAddr) (r : SetupRequest) (s : State), Addressed a s →
    (WellFormed (.getDescriptorDevice a r) = true → cursorStarts (.getDescriptorDevice a r) r .dev s.par.devDesc s) ∧
    (WellFormed (.getDescriptorConfig a r) = true → cursorStarts (.getDescriptorConfig a r) r .cfg (cfgDesc s.par) s) ∧
    (∀ tbl, WellFormed (.getDescriptorString a r) = true → strDesc s.par r.wValueL = some tbl →
      cursorStarts (.getDescriptorString a r) r (.str r.wValueL) tbl s) ∧
    (WellFormed (.getDescriptorString a r) = true → strDesc s.par r.wValueL = none →
      requestFails (.getDescriptorString a r) r .unsupportedRequest s) ∧
    (WellFormed (.getDescriptorBad a r) = true → requestFails (.getDescriptorBad a r) r .unsupportedRequest s)

/-- R97: GET_CONFIGURATION arms min(wLength, 1) bytes, the configuration value. -/
def Obligations.GetConfigurationArmsTheValue : Prop :=
  ∀ (a : DevAddr) (r : SetupRequest) (s : State), WellFormed (.getConfiguration a r) = true → Addressed a s →
    ∃ m, exec (.getConfiguration a r) s = .next { s with
        mem := m, out := s.out ++ [.response .ack], ep0 := ep0Ok (min r.wLength.toNat 1),
        ctl := ⟨some r, 0x08, .empty, if r.wLength = 0 then .statusIn else .dataIn⟩ } ∧
      packetAndAnswerLand m r 1 (fun _ => if s.sess.cfg = 1 then 0x01 else 0x00) s

/-- R98: SET_CONFIGURATION stores wValueL when it is 0 or 1, at once, and any other value is FAIL(UNSUPPORTED_REQUEST). -/
def Obligations.SetConfigurationStoresTheValue : Prop :=
  ∀ (a : DevAddr) (r : SetupRequest) (s : State), Addressed a s →
    (WellFormed (.setConfiguration a r) = true → ∃ m, packetLands m r s ∧ exec (.setConfiguration a r) s =
      .next { statusArmed m r .statusIn s with sess := { s.sess with cfg := if r.wValueL = 1 then 1 else 0 } }) ∧
    (WellFormed (.setConfigurationBad a r) = true → requestFails (.setConfigurationBad a r) r .unsupportedRequest s)

/-- R92, R121: SET_FEATURE(DEVICE_REMOTE_WAKEUP) enters the suspend sequence, with no response applied to EP0; when wake is
not advertised, or with another selector for the device recipient, it is FAIL(UNSUPPORTED_REQUEST). That the ACK stands before
`onPowerDown` among the outputs of the step is the model's choice (log entry 9), in the order in which R79's pseudocode writes
them; the wake bit is the spec's from general knowledge (log entry 17). -/
def Obligations.SetDeviceFeaturePutsTheCoreToSleep : Prop :=
  ∀ (a : DevAddr) (r : SetupRequest) (s : State), Addressed a s →
    (WellFormed (.setFeatureDevice a r) = true → wakeAdvertised s.par = true →
      ∃ m, packetLands m r s ∧ exec (.setFeatureDevice a r) s = .next { s with
        mem := m, out := s.out ++ [.response .ack, .powerDown], ep0 := { s.ep0 with rxLen := 8 },
        ctl := ⟨some r, 0x03, .empty, s.ctl.stage⟩, sess := { s.sess with suspended := true },
        pwr := ⟨.drainWait, .feature, s.pwr.wakeArm⟩ }) ∧
    (WellFormed (.setFeatureDevice a r) = true → wakeAdvertised s.par = false →
      requestFails (.setFeatureDevice a r) r .unsupportedRequest s) ∧
    (WellFormed (.setFeatureBad a r) = true → recipient r = 0 → requestFails (.setFeatureBad a r) r .unsupportedRequest s)

/-- R100, R102: SET_LINE_CODING and SET_CONTROL_LINE_STATE are acknowledged at the Setup stage and change nothing but what
every accepted request changes; SET_LINE_CODING with a data stage waits for it. -/
def Obligations.LineRequestsAreAcknowledged : Prop :=
  ∀ (a : DevAddr) (r : SetupRequest) (s : State), Addressed a s →
    (WellFormed (.setLineCoding a r) = true → ∃ m, packetLands m r s ∧ exec (.setLineCoding a r) s =
      .next (statusArmed m r (if r.wLength = 0 then .statusIn else .dataOut) s)) ∧
    (WellFormed (.setControlLineState a r) = true → ∃ m, packetLands m r s ∧ exec (.setControlLineState a r) s =
      .next (statusArmed m r .statusIn s))

/-- R101: GET_LINE_CODING opens a cursor over the seven bytes of the record. -/
def Obligations.GetLineCodingOpensTheRecord : Prop :=
  ∀ (a : DevAddr) (r : SetupRequest) (s : State), WellFormed (.getLineCoding a r) = true → Addressed a s →
    cursorStarts (.getLineCoding a r) r .lc s.lc.bytes s

/-- R103: the bootloader request emits `bootloaderJump` and leaves EXITED, with no response applied to EP0; after it no
operation has a step. That the ACK stands before `bootloaderJump` among the outputs of the step is the model's choice (log entry
9), in the order in which R79's pseudocode writes them. -/
def Obligations.BootloaderRequestEndsTheRun : Prop :=
  ∀ (a : DevAddr) (r : SetupRequest) (s : State), WellFormed (.resetDeviceToBootloader a r) = true → Addressed a s →
    ∃ m, packetLands m r s ∧
      let t : State := { s with
        mem := m, out := s.out ++ [.response .ack, .bootloaderJump], ep0 := { s.ep0 with rxLen := 8 },
        ctl := ⟨some r, 0x65, .empty, s.ctl.stage⟩, pwr := { s.pwr with state := .exited } }
      exec (.resetDeviceToBootloader a r) s = .next t ∧ ∀ i, exec i t = .refused .exited

/-! ### EP0 data and status stages -/

/-- R105: the EP0 IN completion, in its three branches. Each sends the armed packet first (R74). -/
def Obligations.Ep0InCompletionFollowsThePendingRequest : Prop :=
  ∀ (a : DevAddr) (s : State), Addressed a s → s.ep0.tx.mode = .ack →
    let sent := s.out ++ [.response (.data s.ep0.tx.tog (s.memReadN .ep0tx 0 s.ep0.txLen))]
    let stage := if s.ctl.stage = .statusIn then .idle else s.ctl.stage
    ((s.ctl.pendReq = 0x06 ∨ s.ctl.pendReq = 0x21) → LengthInv s → ∃ m n, n = min s.ctl.cur.remaining 64 ∧
      exec (.inEp0 a true) s = .next { s with
        mem := m, out := sent,
        ep0 := { s.ep0 with txLen := n, tx := ⟨.ack, flipPid s.ep0.tx.tog⟩ },
        ctl := { s.ctl with
          cur := ⟨s.ctl.cur.src, s.ctl.cur.off + n, s.ctl.cur.remaining - n⟩, stage := stage } } ∧
      ∀ sp x, (withMem m s).memRead sp x =
        if sp = .ep0tx ∧ x < n then
          (match s.ctl.cur.src with
            | .dev => s.par.devDesc.getD (s.ctl.cur.off + x) 0
            | .cfg => (cfgDesc s.par).getD (s.ctl.cur.off + x) 0
            | .str i => ((strDesc s.par i).getD []).getD (s.ctl.cur.off + x) 0
            | .lc => s.lc.bytes.getD (s.ctl.cur.off + x) 0
            | .none => 0)
        else s.memRead sp x) ∧
    (s.ctl.pendReq = 0x05 → exec (.inEp0 a true) s = .next { s with
        out := sent, sess := { s.sess with addr := s.sess.pendAddr },
        ep0 := { s.ep0 with tx := ⟨.nak, s.ep0.tx.tog⟩, rx := ⟨.ack, s.ep0.rx.tog⟩ },
        ctl := { s.ctl with stage := stage } }) ∧
    (s.ctl.pendReq ≠ 0x06 → s.ctl.pendReq ≠ 0x21 → s.ctl.pendReq ≠ 0x05 → exec (.inEp0 a true) s = .next { s with
        out := sent,
        ep0 := { s.ep0 with txLen := 0, tx := ⟨.nak, s.ep0.tx.tog⟩, rx := ⟨.ack, s.ep0.rx.tog⟩ },
        ctl := { s.ctl with stage := stage } })

/-- R106 (with R75 and R131): the SET_LINE_CODING data stage. An out-of-sync packet is acknowledged and lands in EP0RX, but is
not committed; a sync-OK packet of another length than 7 raises the fault; one of 7 bytes is committed, its baud clamped. -/
def Obligations.LineCodingDataStageCommitsSevenBytes : Prop :=
  ∀ (a : DevAddr) (pid : Pid) (data : List Byte) (s : State), Addressed a s → s.ep0.rx.mode = .ack → s.ctl.pendReq = 0x20 →
    data.length ≤ 64 →
    ∃ m, (∀ sp x, (withMem m s).memRead sp x = if sp = .ep0rx ∧ x < data.length then data.getD x 0 else s.memRead sp x) ∧
      let t : State := { s with mem := m, out := s.out ++ [.response .ack], ep0 := { s.ep0 with rxLen := data.length } }
      (pid ≠ s.ep0.rx.tog → exec (.outEp0 a pid data) s = .next t) ∧
      (pid = s.ep0.rx.tog → data.length ≠ 7 →
        exec (.outEp0 a pid data) s = .next { t with fault := some .hostLineCodingLength }) ∧
      (∀ b0 b1 b2 b3 b4 b5 b6, pid = s.ep0.rx.tog → data = [b0, b1, b2, b3, b4, b5, b6] →
        exec (.outEp0 a pid data) s = .next { t with
          lc := ⟨if (le32 b0 b1 b2 b3).toNat > 999999 then 57600 else le32 b0 b1 b2 b3, b4, b5, b6⟩,
          ep0 := { s.ep0 with rxLen := 7, txLen := 0, tx := ⟨.ack, s.ep0.tx.tog⟩ },
          ctl := { s.ctl with stage := if s.ctl.stage = .dataOut then .statusIn else s.ctl.stage } })

/-- R107: an EP0 OUT completion while another request is pending closes the transfer, whatever the packet's PID. -/
def Obligations.StatusOutClosesTheTransfer : Prop :=
  ∀ (a : DevAddr) (pid : Pid) (data : List Byte) (s : State), Addressed a s → s.ep0.rx.mode = .ack → s.ctl.pendReq ≠ 0x20 →
    data.length ≤ 64 →
    ∃ m, exec (.outEp0 a pid data) s = .next { s with
        mem := m, out := s.out ++ [.response .ack],
        ep0 := ⟨⟨.nak, s.ep0.tx.tog⟩, ⟨.ack, s.ep0.rx.tog⟩, 0, data.length⟩,
        ctl := { s.ctl with
          stage := if s.ctl.stage = .dataIn ∨ s.ctl.stage = .statusIn then .idle else s.ctl.stage } } ∧
      ∀ sp x, (withMem m s).memRead sp x = if sp = .ep0rx ∧ x < data.length then data.getD x 0 else s.memRead sp x

/-- R86, R96, R101, R105: the whole data stage of a GET_DESCRIPTOR or a GET_LINE_CODING. After the SETUP, the j-th IN the host
acknowledges is answered with the j-th 64-byte piece of the first T = min(wLength, |table|) bytes, DATA1 and DATA0 in turn, and
with empty packets from then on. -/
def Obligations.DataStageSendsTheClippedTable : Prop :=
  ∀ (a : DevAddr) (r : SetupRequest) (s : State) (tbl : List Byte), Addressed a s →
    (isStandard r = true ∧ r.bRequest = 0x06 ∧
        ((r.wValueH = 1 ∧ tbl = s.par.devDesc) ∨ (r.wValueH = 2 ∧ tbl = cfgDesc s.par) ∨
          (r.wValueH = 3 ∧ strDesc s.par r.wValueL = some tbl)) ∨
      isStandard r = false ∧ r.bRequest = 0x21 ∧ tbl = s.lc.bytes) →
    ∀ k, ∃ t, execAll (decodeRequest a r :: List.replicate k (.inEp0 a true)) s = .next t ∧
      t.out = s.out ++ .response .ack :: (List.range k).map fun j =>
        .response (.data (if j % 2 = 0 then .data1 else .data0) (((tbl.take r.wLength.toNat).drop (64 * j)).take 64))

/-- The round trip of the line coding (R100, R101, R105, R106, R108): what SET_LINE_CODING stores, GET_LINE_CODING returns, with the
baud clamped to 57600 above 999999 and the other three bytes as sent. -/
def Obligations.LineCodingRoundTrip : Prop :=
  ∀ (a : DevAddr) (w q : SetupRequest) (s : State) (b0 b1 b2 b3 b4 b5 b6 : Byte),
    WellFormed (.setLineCoding a w) = true → WellFormed (.getLineCoding a q) = true → q.wLength.toNat ≥ 7 → Addressed a s →
    ∃ t, execAll [.setLineCoding a w, .outEp0 a .data1 [b0, b1, b2, b3, b4, b5, b6], .inEp0 a true,
        .getLineCoding a q, .inEp0 a true] s = .next t ∧
      t.out = s.out ++ [.response .ack, .response .ack, .response (.data .data1 []), .response .ack,
        .response (.data .data1 (if (le32 b0 b1 b2 b3).toNat > 999999 then [0x00, 0xE1, 0x00, 0x00, b4, b5, b6]
          else [b0, b1, b2, b3, b4, b5, b6]))]

/-- R108: the transfers of a host that follows the protocol end with the stage IDLE, EP0 IN NAK and EP0 OUT ACK, the OUT toggle 1 and
the IN toggle 1, but for a read with a cursor, where it has flipped with each IN. -/
def Obligations.TransfersEndIdle : Prop :=
  ∀ (a : DevAddr) (r : SetupRequest) (s : State), Addressed a s →
    let endsIdle (script : List Instr) (tog : Pid) : Prop :=
      ∃ t, execAll script s = .next t ∧ t.ctl.stage = .idle ∧ t.ep0.tx = ⟨.nak, tog⟩ ∧ t.ep0.rx = ⟨.ack, .data1⟩ ∧ t.ep0.txLen = 0
    (∀ i, WellFormed i = true →
      (i = .setAddress a r ∨ i = .setConfiguration a r ∨ i = .setControlLineState a r ∨
        (i = .clearFeatureDevice a r ∧ wakeAdvertised s.par = true) ∨
        ((i = .clearFeatureEndpoint a r ∨ i = .setFeatureEndpoint a r) ∧ halfOfIndex r.wIndexL ≠ none)) →
      endsIdle [i, .inEp0 a true] .data1) ∧
    ((WellFormed (.getStatus a r) = true ∨ WellFormed (.getConfiguration a r) = true) → r.wLength ≠ 0 →
      endsIdle (ctrlRead a r 1) .data1) ∧
    (∀ k, (isStandard r = true ∧ r.bRequest = 0x06 ∧ descriptorSrc s.par r ≠ none ∨ isStandard r = false ∧ r.bRequest = 0x21) →
      r.wLength ≠ 0 → endsIdle (ctrlRead a r k) (if k % 2 = 0 then .data1 else .data0)) ∧
    (∀ bytes, WellFormed (.setLineCoding a r) = true → r.wLength = 7 → bytes.length = 7 → endsIdle (ctrlWrite a r bytes) .data1)

/-! ### The bridge -/

/-- R109, R110: the IN completions of EP1 and EP2. The half NAKs with length 0 and its toggle advanced (R76); EP2's clears busy, and
the ring is not touched. -/
def Obligations.BridgeInCompletionsNak : Prop :=
  ∀ (a : DevAddr) (s : State), Addressed a s →
    (s.ep1.tx.mode = .ack → exec (.inEp1 a true) s = .next { s with
      out := s.out ++ [.response (.data s.ep1.tx.tog (s.memReadN .ep1tx 0 s.ep1.txLen))],
      ep1 := { s.ep1 with txLen := 0, tx := ⟨.nak, flipPid s.ep1.tx.tog⟩ } }) ∧
    (s.ep2.tx.mode = .ack → exec (.inEp2 a true) s = .next { s with
      out := s.out ++ [.response (.data s.ep2.tx.tog (s.memReadN .ep2tx 0 s.ep2.txLen))],
      ep2 := { s.ep2 with txLen := 0, tx := ⟨.nak, flipPid s.ep2.tx.tog⟩ }, tx := { s.tx with busy := false } })

/-- R111 (with R75, R76, R131): the EP2 OUT completion. A sync-OK packet is recorded and the half goes to NAK; an out-of-sync one
is acknowledged and lands in EP2RX, and nothing is committed. -/
def Obligations.Ep2OutCompletionAppliesBackpressure : Prop :=
  ∀ (a : DevAddr) (pid : Pid) (data : List Byte) (s : State), Addressed a s → s.ep2.rx.mode = .ack → data.length ≤ 64 →
    ∃ m, (∀ sp x, (withMem m s).memRead sp x = if sp = .ep2rx ∧ x < data.length then data.getD x 0 else s.memRead sp x) ∧
      (pid = s.ep2.rx.tog → exec (.outEp2 a pid data) s = .next { s with
        mem := m, out := s.out ++ [.response .ack], rx := ⟨data.length, 0⟩,
        ep2 := { s.ep2 with rxLen := data.length, rx := ⟨.nak, flipPid s.ep2.rx.tog⟩ } }) ∧
      (pid ≠ s.ep2.rx.tog → exec (.outEp2 a pid data) s = .next { s with
        mem := m, out := s.out ++ [.response .ack], ep2 := { s.ep2 with rxLen := data.length } })

/-- R112, R115, R118: a tick is the RX step, then the TX step. The RX step delivers one byte when one is left, and reopens the half
with the last one; `u` is the state after it. The TX step does nothing until the device is configured; then it counts while bytes
are pending, and arms a packet exactly when the endpoint is free and 39 bytes are pending or the count exceeds 100. -/
def Obligations.TickDeliversOneByteAndDrainsTheRing : Prop :=
  ∀ (s : State), Running s →
    let u : State := if s.rx.count = 0 then s else { s with
      out := s.out ++ [.byteReceived (s.memRead .ep2rx s.rx.off)], rx := ⟨s.rx.count - 1, s.rx.off + 1⟩,
      ep2 := { s.ep2 with rx := ⟨if s.rx.count = 1 then .ack else s.ep2.rx.mode, s.ep2.rx.tog⟩ } }
    let c := if s.tx.pend > 0 then (s.tx.timeout + 1) % 2 ^ wTo s.par else s.tx.timeout
    let n := min (min s.tx.pend (txcap s.par - s.tx.r)) 64
    let due := s.tx.busy = false ∧ s.tx.pend > 0 ∧ (s.tx.pend ≥ 39 ∨ c > 100)
    (s.sess.cfg = 0 → exec .tick s = .next u) ∧
    (s.sess.cfg = 1 → ¬ due → exec .tick s = .next { u with tx := { s.tx with timeout := c } }) ∧
    (s.sess.cfg = 1 → due → ∃ m, exec .tick s = .next { u with
        mem := m, tx := ⟨s.tx.w, (s.tx.r + n) % txcap s.par, s.tx.pend - n, true, 0⟩,
        ep2 := { u.ep2 with txLen := n, tx := ⟨.ack, s.ep2.tx.tog⟩ } } ∧
      ∀ sp x, (withMem m s).memRead sp x = if sp = .ep2tx ∧ x < n then s.memRead .ring (s.tx.r + x) else s.memRead sp x)

/-- R118: "The two halves touch disjoint state, so their order cannot be observed." -/
def Obligations.TickHalvesCommute : Prop := ∀ s : State, txStep (rxStep s) = rxStep (txStep s)

/-- R114: enqueue stores the byte at the write index, or raises FAULT(TX_OVERFLOW) when the ring is full. -/
def Obligations.EnqueueStoresOneByteOrOverflows : Prop :=
  ∀ (b : Byte) (s : State), Running s →
    (s.tx.pend = txcap s.par → exec (.enq b) s = .next { s with fault := some .txOverflow }) ∧
    (s.tx.pend ≠ txcap s.par → ∃ m, exec (.enq b) s = .next { s with
        mem := m, tx := { s.tx with w := (s.tx.w + 1) % txcap s.par, pend := s.tx.pend + 1 } } ∧
      ∀ sp x, (withMem m s).memRead sp x = if sp = .ring ∧ x = s.tx.w then b else s.memRead sp x)

/-- R117: the empty query returns whether no byte is pending, and has no side effect. -/
def Obligations.EmptyQueryReportsPending : Prop :=
  ∀ s : State, Running s →
    exec .emptyQuery s = .next { s with out := s.out ++ [.emptyResult (decide (s.tx.pend = 0))] }

/-- R113: the backpressure of a packet of N bytes. The half is NAK after the OUT and after each of the next N − 1 ticks, ACK from
the N-th on; the bytes are delivered in order, once each; and every OUT in between is answered NAK. -/
def Obligations.BackpressureLastsExactlyNTicks : Prop :=
  ∀ (a : DevAddr) (pid : Pid) (data : List Byte) (s : State), Addressed a s → 1 ≤ data.length → data.length ≤ 64 →
    s.ep2.rx = ⟨.ack, pid⟩ → s.rx.count = 0 →
    ∃ t, exec (.outEp2 a pid data) s = .next t ∧ t.ep2.rx.mode = .nak ∧
      ∀ k, ∃ u, execAll (List.replicate k .tick) t = .next u ∧
        u.out = s.out ++ .response .ack :: (data.take k).map .byteReceived ∧
        u.ep2.rx.mode = (if k < data.length then .nak else .ack) ∧
        (k < data.length → ∀ pid' data', data'.length ≤ 64 →
          exec (.outEp2 a pid' data') u = .next { u with out := u.out ++ [.response .nak] })

/-- R116: batching. From a configured, idle bridge with an empty ring, k < 39 bytes enqueued before a tick wait through
ticks 1 to 100, and tick 101 arms one packet of min(k, TXCAP − tx.r, 64) bytes; if the 39th byte is enqueued before tick
j ≤ 101, then tick j arms the packet. -/
def Obligations.BatchingWaitsFor39BytesOr101Ticks : Prop :=
  ∀ (s : State) (bs : List Byte), Running s → RingInv s → s.sess.cfg = 1 → s.tx.busy = false → s.tx.timeout = 0 → s.tx.pend = 0 →
    1 ≤ bs.length → bs.length < 39 → bs.length ≤ txcap s.par →
    let n := min (min bs.length (txcap s.par - s.tx.r)) 64
    (∀ j, j ≤ 100 → ∃ t, execAll (bs.map .enq ++ List.replicate j .tick) s = .next t ∧
      t.tx.pend = bs.length ∧ t.tx.busy = false ∧ t.ep2.tx = s.ep2.tx ∧ t.ep2.txLen = s.ep2.txLen) ∧
    (∃ t, execAll (bs.map .enq ++ List.replicate 101 .tick) s = .next t ∧
      t.tx.pend = bs.length - n ∧ t.tx.busy = true ∧ t.ep2.tx = ⟨.ack, s.ep2.tx.tog⟩ ∧ t.ep2.txLen = n ∧
      t.memReadN .ep2tx 0 n = bs.take n) ∧
    (∀ (j : Nat) (cs : List Byte), 1 ≤ j → j ≤ 101 → bs.length + cs.length = 39 → 39 ≤ txcap s.par →
      ∃ t, execAll (bs.map .enq ++ List.replicate (j - 1) .tick ++ cs.map .enq ++ [.tick]) s = .next t ∧
        t.tx.busy = true ∧ t.ep2.tx = ⟨.ack, s.ep2.tx.tog⟩ ∧
        t.ep2.txLen = min (min 39 (txcap s.par - s.tx.r)) 64)

/-! ### The power controller, bus reset, faults -/

/-- R121: a bus SUSPEND in RUN. -/
def Obligations.SuspendEntersDrainWait : Prop :=
  ∀ s : State, Running s → exec .busSuspend s = .next { s with
    out := s.out ++ [.powerDown], sess := { s.sess with suspended := true }, pwr := ⟨.drainWait, .bus, s.pwr.wakeArm⟩ }

/-- R122: POLL arms the wake sources and halts when the UART is idle in DRAIN_WAIT, and has no effect otherwise. -/
def Obligations.PollHaltsWhenTheUartIsIdle : Prop :=
  ∀ (uart : Bool) (s : State), s.fault = none → s.pwr.state ≠ .exited →
    exec (.poll uart) s = .next (if s.pwr.state = .drainWait ∧ uart = false
      then { s with pwr := ⟨.halt, s.pwr.origin, ⟨true, true, true⟩⟩ } else s)

/-- R123: RESUME, RXD0LOW and RXD1LOW wake the core from HALT when their source is armed, and have no effect otherwise. For
origin FEATURE the deferred SetupOK(0) is applied. -/
def Obligations.WakeReturnsToRun : Prop :=
  ∀ s : State, s.fault = none → s.pwr.state ≠ .exited →
    let woken : State := { s with
      sess := { s.sess with suspended := false }, pwr := ⟨.run, s.pwr.origin, ⟨false, false, false⟩⟩,
      ep0 := if s.pwr.origin = .feature then ⟨⟨.ack, .data1⟩, ⟨.ack, .data1⟩, 0, s.ep0.rxLen⟩ else s.ep0,
      ctl := if s.pwr.origin = .feature then { s.ctl with stage := .statusIn } else s.ctl }
    exec .resume s = .next (if s.pwr.state = .halt ∧ s.pwr.wakeArm.usb = true then woken else s) ∧
    exec .rxd0Low s = .next (if s.pwr.state = .halt ∧ s.pwr.wakeArm.rxd0 = true then woken else s) ∧
    exec .rxd1Low s = .next (if s.pwr.state = .halt ∧ s.pwr.wakeArm.rxd1 = true then woken else s)

/-- R144: the bus reset, in RUN; in HALT with USB armed it leaves the same, with the wake's changes to the power controller. In the
other power states it has no step. -/
def Obligations.BusResetRestoresTheTable : Prop :=
  ∀ s : State, s.fault = none →
    (s.pwr.state = .run ∨ s.pwr.state = .halt ∧ s.pwr.wakeArm.usb = true → exec .busReset s = .next { s with
      sess := ⟨0, 0, 0, false⟩,
      ep0 := ⟨⟨.nak, .data0⟩, ⟨.ack, .data0⟩, 0, 0⟩, ep1 := ⟨⟨.nak, .data0⟩, ⟨.nak, .data0⟩, 0, 0⟩,
      ep2 := ⟨⟨.nak, .data0⟩, ⟨.ack, .data0⟩, 0, 0⟩, ep3 := ⟨⟨.nak, .data0⟩, ⟨.nak, .data0⟩⟩,
      tx := { s.tx with busy := false }, rx := ⟨0, 0⟩, ctl := ⟨none, 0xFF, ⟨.none, 0, 0⟩, .idle⟩,
      pwr := if s.pwr.state = .run then s.pwr else ⟨.run, s.pwr.origin, ⟨false, false, false⟩⟩ }) ∧
    (s.pwr.state = .drainWait → exec .busReset s = .refused .notEnabled) ∧
    (s.pwr.state = .exited → exec .busReset s = .refused .exited)

/-- R124: the gating table, for every operation. In RUN every operation has a step, by its own rule; what each is outside RUN is
the table's. Two things are the model's: the tokens to undeclared endpoints, which the table does not list, stand in the row of
their kind (log entry 7), and "no step" is a refusal (log entry 6). -/
def Obligations.PowerStateGatesEveryOperation : Prop :=
  ∀ (i : Instr) (s : State), s.fault = none →
    (s.pwr.state = .run →
      (∃ t, exec i s = .next t) ∧ (opClass i ∈ [.resume, .rxd0, .rxd1, .poll] → exec i s = .next s)) ∧
    (s.pwr.state = .drainWait →
      (opClass i ∈ [.setup, .reset, .suspend, .mainLoop] → exec i s = .refused .notEnabled) ∧
      (∀ a, opClass i = .token → tokenAddr i = some a →
        exec i s = .next { s with out := s.out ++ [.response (if a = s.sess.addr then .nak else .none)] }) ∧
      (opClass i ∈ [.resume, .rxd0, .rxd1] → exec i s = .next s) ∧
      (∀ uart, i = .poll uart →
        exec i s = .next (if uart = true then s else { s with pwr := ⟨.halt, s.pwr.origin, ⟨true, true, true⟩⟩ }))) ∧
    (s.pwr.state = .halt →
      (opClass i = .mainLoop → exec i s = .refused .notEnabled) ∧
      (opClass i ∈ [.suspend, .poll] → exec i s = .next s) ∧
      (opClass i ∈ [.setup, .token] → exec i s = .next { wake .usb s with out := s.out ++ [.response .none] }) ∧
      (opClass i = .reset → exec i s = .next (busResetNow (wake .usb s))) ∧
      (opClass i = .resume → exec i s = .next (wake .usb s)) ∧
      (opClass i = .rxd0 → exec i s = .next (wake .rxd0 s)) ∧
      (opClass i = .rxd1 → exec i s = .next (wake .rxd1 s))) ∧
    (s.pwr.state = .exited → exec i s = .refused .exited)

/-- R120: the power state moves only along the rows of the table. -/
def Obligations.PowerStateMovesOnlyAlongItsTable : Prop :=
  ∀ (i : Instr) (s t : State), WellFormed i = true → exec i s = .next t → t.pwr.state ≠ s.pwr.state →
    (s.pwr.state = .run ∧ i = .busSuspend ∧ t.pwr.state = .drainWait ∧ t.pwr.origin = .bus) ∨
    (s.pwr.state = .run ∧ (∃ a r, i = .setFeatureDevice a r) ∧ t.pwr.state = .drainWait ∧ t.pwr.origin = .feature) ∨
    (s.pwr.state = .run ∧ (∃ a r, i = .resetDeviceToBootloader a r) ∧ t.pwr.state = .exited) ∨
    (s.pwr.state = .drainWait ∧ i = .poll false ∧ t.pwr.state = .halt) ∨
    (s.pwr.state = .halt ∧ opClass i ∈ [.setup, .token, .reset, .resume, .rxd0, .rxd1] ∧ t.pwr.state = .run)

/-- R125: a suspend cycle with no bus reset, of either origin, changes only what R125 lists. `ds` is what happens while the core
drains: INs and OUTs, wake events and polls with the UART busy, each without effect but for its answer (R124); `hs` is what
happens while it is halted and wakes nothing; `w` is the wake, by a wake event or by a host token (R123). The order of the outputs
of one step is the model's choice (log entry 9), and so is the gating of a token to an undeclared endpoint (log entry 7). -/
def Obligations.SuspendCycleRestoresTheState : Prop :=
  ∀ (s : State) (ds hs : List Instr) (w : Instr), Running s → s.pwr.wakeArm = ⟨false, false, false⟩ → s.sess.suspended = false →
    (∀ i ∈ ds, opClass i ∈ [.token, .resume, .rxd0, .rxd1] ∨ i = .poll true) →
    (∀ i ∈ hs, opClass i ∈ [.suspend, .poll]) → opClass w ∈ [.setup, .token, .resume, .rxd0, .rxd1] →
    let answers := ds.flatMap (drainAnswer s.sess.addr) ++ wakeAnswer w
    let cycle (i : Instr) : List Instr := i :: ds ++ .poll false :: hs ++ [w]
    execAll (cycle .busSuspend) s =
      .next { s with out := s.out ++ .powerDown :: answers, pwr := { s.pwr with origin := .bus } } ∧
    ∀ a r, WellFormed (.setFeatureDevice a r) = true → Addressed a s → wakeAdvertised s.par = true →
      ∃ m, packetLands m r s ∧
        execAll (cycle (.setFeatureDevice a r)) s =
          .next { statusArmed m r .statusIn s with
            out := s.out ++ .response .ack :: .powerDown :: answers, pwr := { s.pwr with origin := .feature } }

/-- R37, R133: once the fault mark is set no operation has a step. -/
def Obligations.FaultMarkStopsEveryOperation : Prop :=
  ∀ (i : Instr) (s : State) (k : Fault), s.fault = some k → exec i s = .fault k

/-! ### The invariant -/

/-- R145, R146: the power-on column, for every choice of the OPEN parameters, and reset is the power-on state of the hardware's own
parameters. That no byte is listed (log entry 4), and that no output has been made and no operation issued (log entries 3 and 9), is
the model's own. -/
def Obligations.PowerOnStateIsTheTable : Prop :=
  State.reset = State.powerOn Config.params ∧ ∀ p, State.powerOn p = {
    par := p, sess := ⟨0, 0, 0, false⟩,
    ep0 := ⟨⟨.nak, .data0⟩, ⟨.ack, .data0⟩, 0, 0⟩, ep1 := ⟨⟨.nak, .data0⟩, ⟨.nak, .data0⟩, 0, 0⟩,
    ep2 := ⟨⟨.nak, .data0⟩, ⟨.ack, .data0⟩, 0, 0⟩, ep3 := ⟨⟨.nak, .data0⟩, ⟨.nak, .data0⟩⟩,
    ctl := ⟨none, 0xFF, ⟨.none, 0, 0⟩, .idle⟩, tx := ⟨0, 0, 0, false, 0⟩, rx := ⟨0, 0⟩,
    lc := ⟨57600, 0x00, 0x00, 0x08⟩, pwr := ⟨.run, .bus, ⟨false, false, false⟩⟩,
    mem := ⟨[], [], [], [], [], []⟩, fault := none, lastFail := none, out := [], input := [] }

/-- The power-on state meets the invariant, whatever the parameters. -/
def Obligations.PowerOnMeetsTheInvariant : Prop := (∀ p, MachineInv (State.powerOn p)) ∧ MachineInv State.reset

/-- Every step keeps the invariant: memory's canonical form, the ring (R32), the lengths and the cursor's bound (R29), the
power controller's registers (R121 to R123), the endpoint modes (R105, R109, R115), and that no rule reads a byte before it is
written (R145). -/
def Obligations.EveryStepKeepsTheInvariant : Prop :=
  ∀ (s t : State), MachineInv s → step s = .next t → MachineInv t

/-- R33's invariant "rx.off + rx.count = ep[2].rxLen whenever rx.count > 0", which the spec derives from R111 and R112. An
out-of-sync OUT packet after CLEAR_FEATURE(0x02) has reopened the half early (R151) writes `rxLen` (R75) and not `rx`. -/
def Obligations.RxCountAddsUpToThePacketLength : Prop :=
  ∀ (s t : State), MachineInv s → (s.rx.count > 0 → s.rx.off + s.rx.count = s.ep2.rxLen) → step s = .next t →
    (t.rx.count > 0 → t.rx.off + t.rx.count = t.ep2.rxLen)

/-! ### Rules about every operation -/

/-- R27: a toggle changes only at the documented flip points: the end of a Setup stage (also the deferred one, at the
wake), an EP0 IN completion that continues a cursor, an endpoint feature request on the half, the automatic advance, and a bus
reset. -/
def Obligations.TogglesChangeOnlyAtFlipPoints : Prop :=
  ∀ (i : Instr) (s t : State) (n : EpNum) (d : Dir), WellFormed i = true → exec i s = .next t → (t.half n d).tog ≠ (s.half n d).tog →
    (n = .ep0 ∧ opClass i = .setup) ∨
    (n = .ep0 ∧ s.pwr.state = .halt ∧ s.pwr.origin = .feature) ∨
    (n = .ep0 ∧ d = .tx ∧ (∃ a, i = .inEp0 a true) ∧ (s.ctl.pendReq = 0x06 ∨ s.ctl.pendReq = 0x21)) ∨
    featureOn i n d = true ∨
    (n = .ep1 ∧ d = .tx ∧ ∃ a, i = .inEp1 a true) ∨
    (n = .ep2 ∧ d = .tx ∧ ∃ a, i = .inEp2 a true) ∨
    (n = .ep2 ∧ d = .rx ∧ ∃ a data, i = .outEp2 a (s.half n d).tog data) ∨
    i = .busReset

/-- R78: every writer of a response mode, with no other writers. -/
def Obligations.ModesHaveNoOtherWriters : Prop :=
  ∀ (i : Instr) (s t : State) (n : EpNum) (d : Dir), WellFormed i = true → exec i s = .next t → (t.half n d).mode ≠ (s.half n d).mode →
    match n, d with
    | .ep0, _ => opClass i ∈ [.setup, .reset] ∨ (s.pwr.state = .halt ∧ s.pwr.origin = .feature) ∨
        (∃ a, i = .inEp0 a true) ∨ (∃ a pid data, i = .outEp0 a pid data)
    | .ep1, .tx => (∃ a, i = .inEp1 a true) ∨ featureOn i .ep1 .tx = true ∨ i = .busReset
    | .ep1, .rx => featureOn i .ep1 .rx = true ∨ i = .busReset
    | .ep2, .tx => i = .tick ∨ (∃ a, i = .inEp2 a true) ∨ featureOn i .ep2 .tx = true ∨ i = .busReset
    | .ep2, .rx => i = .tick ∨ (∃ a pid data, i = .outEp2 a pid data) ∨ featureOn i .ep2 .rx = true ∨ i = .busReset
    | .ep3, d => featureOn i .ep3 d = true ∨ i = .busReset

/-- Which operations may write the session, the line coding and the parameters (R21, R34, R41): the address changes only at an
EP0 IN completion after SET_ADDRESS or at a bus reset, the staged address only by SET_ADDRESS or a bus reset, the configuration
only by SET_CONFIGURATION or a bus reset; `suspended` is set only by SUSPEND or the sleep request, and cleared only by a wake or a
bus reset; the line coding changes only by the EP0 OUT data stage of SET_LINE_CODING; the parameters, and with them DEV, CFG and
STR(i), never. -/
def Obligations.SessionAndTablesHaveTheirOnlyWriters : Prop :=
  ∀ (i : Instr) (s t : State), WellFormed i = true → exec i s = .next t →
    t.par = s.par ∧
    (t.sess.addr ≠ s.sess.addr → i = .busReset ∨ ((∃ a, i = .inEp0 a true) ∧ s.ctl.pendReq = 0x05 ∧ t.sess.addr = s.sess.pendAddr)) ∧
    (t.sess.pendAddr ≠ s.sess.pendAddr →
      i = .busReset ∨ ∃ a r, i = .setAddress a r ∧ t.sess.pendAddr = r.wValueL.setWidth 7) ∧
    (t.sess.cfg ≠ s.sess.cfg → i = .busReset ∨ ∃ a r, i = .setConfiguration a r) ∧
    (t.sess.suspended ≠ s.sess.suspended →
      (t.sess.suspended = true ∧ s.pwr.state = .run ∧ t.pwr.state = .drainWait ∧ (i = .busSuspend ∨ ∃ a r, i = .setFeatureDevice a r)) ∨
      (t.sess.suspended = false ∧ s.pwr.state = .halt ∧ t.pwr.state = .run ∧ opClass i ∈ [.setup, .token, .resume, .rxd0, .rxd1]) ∨
      (t.sess.suspended = false ∧ i = .busReset)) ∧
    (t.lc ≠ s.lc → (∃ a pid data, i = .outEp0 a pid data) ∧ s.ctl.pendReq = 0x20)

/-- R29: "Between one SETUP and the next, `remaining` never increases and `off` never decreases", and the cursor keeps its table. -/
def Obligations.CursorOnlyAdvancesBetweenSetups : Prop :=
  ∀ (i : Instr) (s t : State), exec i s = .next t → opClass i ≠ .setup → i ≠ .busReset →
    t.ctl.cur.src = s.ctl.cur.src ∧ t.ctl.cur.remaining ≤ s.ctl.cur.remaining ∧ s.ctl.cur.off ≤ t.ctl.cur.off ∧
    t.ctl.cur.off + t.ctl.cur.remaining = s.ctl.cur.off + s.ctl.cur.remaining

/-- R52: a main-loop operation touches nothing but the ring, the receive counters, the marks of EP2 it shares with the ISR, and the
buffer it arms; an ISR operation never touches the ring but for busy. -/
def Obligations.ContextsShareOnlyTheListedState : Prop :=
  ∀ (i : Instr) (s t : State), exec i s = .next t →
    (contextOf i = .mainLoop → t.par = s.par ∧ t.sess = s.sess ∧ t.ep0 = s.ep0 ∧ t.ep1 = s.ep1 ∧ t.ep3 = s.ep3 ∧ t.ctl = s.ctl ∧
      t.lc = s.lc ∧ t.pwr = s.pwr ∧ t.ep2.rxLen = s.ep2.rxLen ∧ t.ep2.tx.tog = s.ep2.tx.tog ∧ t.ep2.rx.tog = s.ep2.rx.tog ∧
      ∀ sp x, sp ≠ .ring → sp ≠ .ep2tx → t.memRead sp x = s.memRead sp x) ∧
    (contextOf i = .isr → t.tx = { s.tx with busy := t.tx.busy } ∧ ∀ x, t.memRead .ring x = s.memRead .ring x)

/-- "`kind` is not visible on the bus" (R83), and no rule reads `ctl.stage` (R30, D37): two states that differ only in the last FAIL
kind and the stage answer every operation alike, and the next states differ in nothing else. -/
def Obligations.FailKindAndStageAreUnobservable : Prop :=
  ∀ (i : Instr) (s : State) (k : Option FailKind) (st : Stage),
    let s' : State := { s with lastFail := k, ctl := { s.ctl with stage := st } }
    match exec i s with
    | .next t => ∃ k' st', exec i s' = .next { t with lastFail := k', ctl := { t.ctl with stage := st' } }
    | .fault f => exec i s' = .fault f
    | .refused r => exec i s' = .refused r

/-- R150: a half that NAKs with no byte left to deliver stays so through every operation but a feature request on 0x02 and a bus
reset: "no rule reopens it". A sync-OK bulk-OUT ZLP leaves it there, through any number of ticks; CLEAR_FEATURE(0x02) and a bus
reset are the two ways out. -/
def Obligations.BulkOutZlpLeavesTheHalfStuck : Prop :=
  (∀ (i : Instr) (s t : State), WellFormed i = true → exec i s = .next t → s.ep2.rx.mode = .nak → s.rx.count = 0 →
    featureOn i .ep2 .rx = false → i ≠ .busReset → t.ep2.rx.mode = .nak ∧ t.rx.count = 0) ∧
  ∀ (a : DevAddr) (pid : Pid) (s : State) (k : Nat), Addressed a s → s.ep2.rx = ⟨.ack, pid⟩ →
    ∃ t, execAll (.outEp2 a pid [] :: List.replicate k .tick) s = .next t ∧ t.ep2.rx.mode = .nak ∧ t.rx.count = 0 ∧
      (∀ r, WellFormed (.clearFeatureEndpoint a r) = true → r.wIndexL = 0x02 →
        ∃ u, exec (.clearFeatureEndpoint a r) t = .next u ∧ u.ep2.rx = ⟨.ack, .data0⟩) ∧
      ∃ u, exec .busReset t = .next u ∧ u.ep2.rx = ⟨.ack, .data0⟩

/-- R152: once a feature request on 0x82 has left busy set with the half not ACK, no operation but a bus reset makes the half
ACK again or clears busy. -/
def Obligations.BusyStaysSetUntilABusReset : Prop :=
  ∀ (i : Instr) (s t : State), WellFormed i = true → exec i s = .next t → s.tx.busy = true → s.ep2.tx.mode ≠ .ack → i ≠ .busReset →
    t.tx.busy = true ∧ t.ep2.tx.mode ≠ .ack
end

