-- ==== Sys2Proof/Laws/State.lean ====
section
/-! SUPPORT. One lemma per field per named update of the state, so that no proof unfolds a record update, and what a byte
reads as after an update that leaves memory, parameters and line coding alone. -/

namespace Sys2Proof.Machine

@[simp] theorem emit_par (e : Event) (s : State) : (s.emit e).par = s.par := rfl
@[simp] theorem emit_sess (e : Event) (s : State) : (s.emit e).sess = s.sess := rfl
@[simp] theorem emit_ep0 (e : Event) (s : State) : (s.emit e).ep0 = s.ep0 := rfl
@[simp] theorem emit_ep1 (e : Event) (s : State) : (s.emit e).ep1 = s.ep1 := rfl
@[simp] theorem emit_ep2 (e : Event) (s : State) : (s.emit e).ep2 = s.ep2 := rfl
@[simp] theorem emit_ep3 (e : Event) (s : State) : (s.emit e).ep3 = s.ep3 := rfl
@[simp] theorem emit_ctl (e : Event) (s : State) : (s.emit e).ctl = s.ctl := rfl
@[simp] theorem emit_tx (e : Event) (s : State) : (s.emit e).tx = s.tx := rfl
@[simp] theorem emit_rx (e : Event) (s : State) : (s.emit e).rx = s.rx := rfl
@[simp] theorem emit_lc (e : Event) (s : State) : (s.emit e).lc = s.lc := rfl
@[simp] theorem emit_pwr (e : Event) (s : State) : (s.emit e).pwr = s.pwr := rfl
@[simp] theorem emit_mem (e : Event) (s : State) : (s.emit e).mem = s.mem := rfl
@[simp] theorem emit_fault (e : Event) (s : State) : (s.emit e).fault = s.fault := rfl
@[simp] theorem emit_lastFail (e : Event) (s : State) : (s.emit e).lastFail = s.lastFail := rfl
@[simp] theorem emit_out (e : Event) (s : State) : (s.emit e).out = s.out ++ [e] := rfl
@[simp] theorem emit_input (e : Event) (s : State) : (s.emit e).input = s.input := rfl

@[simp] theorem respond_par (h : Response) (s : State) : (s.respond h).par = s.par := rfl
@[simp] theorem respond_sess (h : Response) (s : State) : (s.respond h).sess = s.sess := rfl
@[simp] theorem respond_ep0 (h : Response) (s : State) : (s.respond h).ep0 = s.ep0 := rfl
@[simp] theorem respond_ep1 (h : Response) (s : State) : (s.respond h).ep1 = s.ep1 := rfl
@[simp] theorem respond_ep2 (h : Response) (s : State) : (s.respond h).ep2 = s.ep2 := rfl
@[simp] theorem respond_ep3 (h : Response) (s : State) : (s.respond h).ep3 = s.ep3 := rfl
@[simp] theorem respond_ctl (h : Response) (s : State) : (s.respond h).ctl = s.ctl := rfl
@[simp] theorem respond_tx (h : Response) (s : State) : (s.respond h).tx = s.tx := rfl
@[simp] theorem respond_rx (h : Response) (s : State) : (s.respond h).rx = s.rx := rfl
@[simp] theorem respond_lc (h : Response) (s : State) : (s.respond h).lc = s.lc := rfl
@[simp] theorem respond_pwr (h : Response) (s : State) : (s.respond h).pwr = s.pwr := rfl
@[simp] theorem respond_mem (h : Response) (s : State) : (s.respond h).mem = s.mem := rfl
@[simp] theorem respond_fault (h : Response) (s : State) : (s.respond h).fault = s.fault := rfl
@[simp] theorem respond_lastFail (h : Response) (s : State) : (s.respond h).lastFail = s.lastFail := rfl
@[simp] theorem respond_out (h : Response) (s : State) : (s.respond h).out = s.out ++ [.response h] := rfl
@[simp] theorem respond_input (h : Response) (s : State) : (s.respond h).input = s.input := rfl

@[simp] theorem raise_par (k : Fault) (s : State) : (s.raise k).par = s.par := rfl
@[simp] theorem raise_sess (k : Fault) (s : State) : (s.raise k).sess = s.sess := rfl
@[simp] theorem raise_ep0 (k : Fault) (s : State) : (s.raise k).ep0 = s.ep0 := rfl
@[simp] theorem raise_ep1 (k : Fault) (s : State) : (s.raise k).ep1 = s.ep1 := rfl
@[simp] theorem raise_ep2 (k : Fault) (s : State) : (s.raise k).ep2 = s.ep2 := rfl
@[simp] theorem raise_ep3 (k : Fault) (s : State) : (s.raise k).ep3 = s.ep3 := rfl
@[simp] theorem raise_ctl (k : Fault) (s : State) : (s.raise k).ctl = s.ctl := rfl
@[simp] theorem raise_tx (k : Fault) (s : State) : (s.raise k).tx = s.tx := rfl
@[simp] theorem raise_rx (k : Fault) (s : State) : (s.raise k).rx = s.rx := rfl
@[simp] theorem raise_lc (k : Fault) (s : State) : (s.raise k).lc = s.lc := rfl
@[simp] theorem raise_pwr (k : Fault) (s : State) : (s.raise k).pwr = s.pwr := rfl
@[simp] theorem raise_mem (k : Fault) (s : State) : (s.raise k).mem = s.mem := rfl
@[simp] theorem raise_fault (k : Fault) (s : State) : (s.raise k).fault = some k := rfl
@[simp] theorem raise_lastFail (k : Fault) (s : State) : (s.raise k).lastFail = s.lastFail := rfl
@[simp] theorem raise_out (k : Fault) (s : State) : (s.raise k).out = s.out := rfl
@[simp] theorem raise_input (k : Fault) (s : State) : (s.raise k).input = s.input := rfl

@[simp] theorem memWrite_par (sp : Space) (x : Nat) (bs : List Byte) (s : State) : (s.memWrite sp x bs).par = s.par := rfl
@[simp] theorem memWrite_sess (sp : Space) (x : Nat) (bs : List Byte) (s : State) : (s.memWrite sp x bs).sess = s.sess := rfl
@[simp] theorem memWrite_ep0 (sp : Space) (x : Nat) (bs : List Byte) (s : State) : (s.memWrite sp x bs).ep0 = s.ep0 := rfl
@[simp] theorem memWrite_ep1 (sp : Space) (x : Nat) (bs : List Byte) (s : State) : (s.memWrite sp x bs).ep1 = s.ep1 := rfl
@[simp] theorem memWrite_ep2 (sp : Space) (x : Nat) (bs : List Byte) (s : State) : (s.memWrite sp x bs).ep2 = s.ep2 := rfl
@[simp] theorem memWrite_ep3 (sp : Space) (x : Nat) (bs : List Byte) (s : State) : (s.memWrite sp x bs).ep3 = s.ep3 := rfl
@[simp] theorem memWrite_ctl (sp : Space) (x : Nat) (bs : List Byte) (s : State) : (s.memWrite sp x bs).ctl = s.ctl := rfl
@[simp] theorem memWrite_tx (sp : Space) (x : Nat) (bs : List Byte) (s : State) : (s.memWrite sp x bs).tx = s.tx := rfl
@[simp] theorem memWrite_rx (sp : Space) (x : Nat) (bs : List Byte) (s : State) : (s.memWrite sp x bs).rx = s.rx := rfl
@[simp] theorem memWrite_lc (sp : Space) (x : Nat) (bs : List Byte) (s : State) : (s.memWrite sp x bs).lc = s.lc := rfl
@[simp] theorem memWrite_pwr (sp : Space) (x : Nat) (bs : List Byte) (s : State) : (s.memWrite sp x bs).pwr = s.pwr := rfl
@[simp] theorem memWrite_mem (sp : Space) (x : Nat) (bs : List Byte) (s : State) : (s.memWrite sp x bs).mem = s.mem.write sp x bs := rfl
@[simp] theorem memWrite_fault (sp : Space) (x : Nat) (bs : List Byte) (s : State) : (s.memWrite sp x bs).fault = s.fault := rfl
@[simp] theorem memWrite_lastFail (sp : Space) (x : Nat) (bs : List Byte) (s : State) : (s.memWrite sp x bs).lastFail = s.lastFail := rfl
@[simp] theorem memWrite_out (sp : Space) (x : Nat) (bs : List Byte) (s : State) : (s.memWrite sp x bs).out = s.out := rfl
@[simp] theorem memWrite_input (sp : Space) (x : Nat) (bs : List Byte) (s : State) : (s.memWrite sp x bs).input = s.input := rfl

@[simp] theorem setHalf_par (n : EpNum) (d : Dir) (h : Half) (s : State) : (s.setHalf n d h).par = s.par := by cases n <;> cases d <;> rfl
@[simp] theorem setHalf_sess (n : EpNum) (d : Dir) (h : Half) (s : State) : (s.setHalf n d h).sess = s.sess := by cases n <;> cases d <;> rfl
@[simp] theorem setHalf_ctl (n : EpNum) (d : Dir) (h : Half) (s : State) : (s.setHalf n d h).ctl = s.ctl := by cases n <;> cases d <;> rfl
@[simp] theorem setHalf_tx (n : EpNum) (d : Dir) (h : Half) (s : State) : (s.setHalf n d h).tx = s.tx := by cases n <;> cases d <;> rfl
@[simp] theorem setHalf_rx (n : EpNum) (d : Dir) (h : Half) (s : State) : (s.setHalf n d h).rx = s.rx := by cases n <;> cases d <;> rfl
@[simp] theorem setHalf_lc (n : EpNum) (d : Dir) (h : Half) (s : State) : (s.setHalf n d h).lc = s.lc := by cases n <;> cases d <;> rfl
@[simp] theorem setHalf_pwr (n : EpNum) (d : Dir) (h : Half) (s : State) : (s.setHalf n d h).pwr = s.pwr := by cases n <;> cases d <;> rfl
@[simp] theorem setHalf_mem (n : EpNum) (d : Dir) (h : Half) (s : State) : (s.setHalf n d h).mem = s.mem := by cases n <;> cases d <;> rfl
@[simp] theorem setHalf_fault (n : EpNum) (d : Dir) (h : Half) (s : State) : (s.setHalf n d h).fault = s.fault := by cases n <;> cases d <;> rfl
@[simp] theorem setHalf_lastFail (n : EpNum) (d : Dir) (h : Half) (s : State) : (s.setHalf n d h).lastFail = s.lastFail := by cases n <;> cases d <;> rfl
@[simp] theorem setHalf_out (n : EpNum) (d : Dir) (h : Half) (s : State) : (s.setHalf n d h).out = s.out := by cases n <;> cases d <;> rfl
@[simp] theorem setHalf_input (n : EpNum) (d : Dir) (h : Half) (s : State) : (s.setHalf n d h).input = s.input := by cases n <;> cases d <;> rfl

@[simp] theorem setRxLen_par (n : EpNum) (len : Nat) (s : State) : (s.setRxLen n len).par = s.par := by cases n <;> rfl
@[simp] theorem setRxLen_sess (n : EpNum) (len : Nat) (s : State) : (s.setRxLen n len).sess = s.sess := by cases n <;> rfl
@[simp] theorem setRxLen_ep3 (n : EpNum) (len : Nat) (s : State) : (s.setRxLen n len).ep3 = s.ep3 := by cases n <;> rfl
@[simp] theorem setRxLen_ctl (n : EpNum) (len : Nat) (s : State) : (s.setRxLen n len).ctl = s.ctl := by cases n <;> rfl
@[simp] theorem setRxLen_tx (n : EpNum) (len : Nat) (s : State) : (s.setRxLen n len).tx = s.tx := by cases n <;> rfl
@[simp] theorem setRxLen_rx (n : EpNum) (len : Nat) (s : State) : (s.setRxLen n len).rx = s.rx := by cases n <;> rfl
@[simp] theorem setRxLen_lc (n : EpNum) (len : Nat) (s : State) : (s.setRxLen n len).lc = s.lc := by cases n <;> rfl
@[simp] theorem setRxLen_pwr (n : EpNum) (len : Nat) (s : State) : (s.setRxLen n len).pwr = s.pwr := by cases n <;> rfl
@[simp] theorem setRxLen_mem (n : EpNum) (len : Nat) (s : State) : (s.setRxLen n len).mem = s.mem := by cases n <;> rfl
@[simp] theorem setRxLen_fault (n : EpNum) (len : Nat) (s : State) : (s.setRxLen n len).fault = s.fault := by cases n <;> rfl
@[simp] theorem setRxLen_lastFail (n : EpNum) (len : Nat) (s : State) : (s.setRxLen n len).lastFail = s.lastFail := by cases n <;> rfl
@[simp] theorem setRxLen_out (n : EpNum) (len : Nat) (s : State) : (s.setRxLen n len).out = s.out := by cases n <;> rfl
@[simp] theorem setRxLen_input (n : EpNum) (len : Nat) (s : State) : (s.setRxLen n len).input = s.input := by cases n <;> rfl

@[simp] theorem half_setHalf_same (n : EpNum) (d : Dir) (h : Half) (s : State) : (s.setHalf n d h).half n d = h := by
  cases n <;> cases d <;> rfl

theorem half_setHalf_other {n n' : EpNum} {d d' : Dir} (h : Half) (s : State) (hne : (n', d') ≠ (n, d)) :
    (s.setHalf n d h).half n' d' = s.half n' d' := by
  cases n <;> cases d <;> cases n' <;> cases d' <;> first | rfl | exact absurd rfl hne

/-! ### The Setup step, the cursor and the power controller -/

@[simp] theorem setupOk_par (n : Nat) (g : Stage) (s : State) : (setupOk n g s).par = s.par := rfl
@[simp] theorem setupOk_sess (n : Nat) (g : Stage) (s : State) : (setupOk n g s).sess = s.sess := rfl
@[simp] theorem setupOk_ep0 (n : Nat) (g : Stage) (s : State) : (setupOk n g s).ep0 = ⟨⟨.ack, .data1⟩, ⟨.ack, .data1⟩, n, s.ep0.rxLen⟩ := rfl
@[simp] theorem setupOk_ep1 (n : Nat) (g : Stage) (s : State) : (setupOk n g s).ep1 = s.ep1 := rfl
@[simp] theorem setupOk_ep2 (n : Nat) (g : Stage) (s : State) : (setupOk n g s).ep2 = s.ep2 := rfl
@[simp] theorem setupOk_ep3 (n : Nat) (g : Stage) (s : State) : (setupOk n g s).ep3 = s.ep3 := rfl
@[simp] theorem setupOk_ctl (n : Nat) (g : Stage) (s : State) : (setupOk n g s).ctl = ⟨s.ctl.setup, s.ctl.pendReq, s.ctl.cur, g⟩ := rfl
@[simp] theorem setupOk_tx (n : Nat) (g : Stage) (s : State) : (setupOk n g s).tx = s.tx := rfl
@[simp] theorem setupOk_rx (n : Nat) (g : Stage) (s : State) : (setupOk n g s).rx = s.rx := rfl
@[simp] theorem setupOk_lc (n : Nat) (g : Stage) (s : State) : (setupOk n g s).lc = s.lc := rfl
@[simp] theorem setupOk_pwr (n : Nat) (g : Stage) (s : State) : (setupOk n g s).pwr = s.pwr := rfl
@[simp] theorem setupOk_mem (n : Nat) (g : Stage) (s : State) : (setupOk n g s).mem = s.mem := rfl
@[simp] theorem setupOk_fault (n : Nat) (g : Stage) (s : State) : (setupOk n g s).fault = s.fault := rfl
@[simp] theorem setupOk_lastFail (n : Nat) (g : Stage) (s : State) : (setupOk n g s).lastFail = s.lastFail := rfl
@[simp] theorem setupOk_out (n : Nat) (g : Stage) (s : State) : (setupOk n g s).out = s.out := rfl
@[simp] theorem setupOk_input (n : Nat) (g : Stage) (s : State) : (setupOk n g s).input = s.input := rfl

@[simp] theorem setupFail_par (k : FailKind) (s : State) : (setupFail k s).par = s.par := rfl
@[simp] theorem setupFail_sess (k : FailKind) (s : State) : (setupFail k s).sess = s.sess := rfl
@[simp] theorem setupFail_ep0 (k : FailKind) (s : State) : (setupFail k s).ep0 = ⟨⟨.stall, .data1⟩, ⟨.stall, .data1⟩, s.ep0.txLen, s.ep0.rxLen⟩ := rfl
@[simp] theorem setupFail_ep1 (k : FailKind) (s : State) : (setupFail k s).ep1 = s.ep1 := rfl
@[simp] theorem setupFail_ep2 (k : FailKind) (s : State) : (setupFail k s).ep2 = s.ep2 := rfl
@[simp] theorem setupFail_ep3 (k : FailKind) (s : State) : (setupFail k s).ep3 = s.ep3 := rfl
@[simp] theorem setupFail_ctl (k : FailKind) (s : State) : (setupFail k s).ctl = ⟨s.ctl.setup, 0xFF, s.ctl.cur, .stalled⟩ := rfl
@[simp] theorem setupFail_tx (k : FailKind) (s : State) : (setupFail k s).tx = s.tx := rfl
@[simp] theorem setupFail_rx (k : FailKind) (s : State) : (setupFail k s).rx = s.rx := rfl
@[simp] theorem setupFail_lc (k : FailKind) (s : State) : (setupFail k s).lc = s.lc := rfl
@[simp] theorem setupFail_pwr (k : FailKind) (s : State) : (setupFail k s).pwr = s.pwr := rfl
@[simp] theorem setupFail_mem (k : FailKind) (s : State) : (setupFail k s).mem = s.mem := rfl
@[simp] theorem setupFail_fault (k : FailKind) (s : State) : (setupFail k s).fault = s.fault := rfl
@[simp] theorem setupFail_lastFail (k : FailKind) (s : State) : (setupFail k s).lastFail = some k := rfl
@[simp] theorem setupFail_out (k : FailKind) (s : State) : (setupFail k s).out = s.out := rfl
@[simp] theorem setupFail_input (k : FailKind) (s : State) : (setupFail k s).input = s.input := rfl

@[simp] theorem cursorLoad_par (s : State) : (cursorLoad s).par = s.par := rfl
@[simp] theorem cursorLoad_sess (s : State) : (cursorLoad s).sess = s.sess := rfl
@[simp] theorem cursorLoad_ep0 (s : State) : (cursorLoad s).ep0 = s.ep0 := rfl
@[simp] theorem cursorLoad_ep1 (s : State) : (cursorLoad s).ep1 = s.ep1 := rfl
@[simp] theorem cursorLoad_ep2 (s : State) : (cursorLoad s).ep2 = s.ep2 := rfl
@[simp] theorem cursorLoad_ep3 (s : State) : (cursorLoad s).ep3 = s.ep3 := rfl
@[simp] theorem cursorLoad_ctl (s : State) : (cursorLoad s).ctl = ⟨s.ctl.setup, s.ctl.pendReq, ⟨s.ctl.cur.src, s.ctl.cur.off + cursorLen s, s.ctl.cur.remaining - cursorLen s⟩, s.ctl.stage⟩ := rfl
@[simp] theorem cursorLoad_tx (s : State) : (cursorLoad s).tx = s.tx := rfl
@[simp] theorem cursorLoad_rx (s : State) : (cursorLoad s).rx = s.rx := rfl
@[simp] theorem cursorLoad_lc (s : State) : (cursorLoad s).lc = s.lc := rfl
@[simp] theorem cursorLoad_pwr (s : State) : (cursorLoad s).pwr = s.pwr := rfl
@[simp] theorem cursorLoad_mem (s : State) : (cursorLoad s).mem = s.mem.write .ep0tx 0 (cursorBytes (cursorLen s) s) := rfl
@[simp] theorem cursorLoad_fault (s : State) : (cursorLoad s).fault = s.fault := rfl
@[simp] theorem cursorLoad_lastFail (s : State) : (cursorLoad s).lastFail = s.lastFail := rfl
@[simp] theorem cursorLoad_out (s : State) : (cursorLoad s).out = s.out := rfl
@[simp] theorem cursorLoad_input (s : State) : (cursorLoad s).input = s.input := rfl

@[simp] theorem suspEnter_par (o : Origin) (s : State) : (suspEnter o s).par = s.par := rfl
@[simp] theorem suspEnter_sess (o : Origin) (s : State) : (suspEnter o s).sess = ⟨s.sess.addr, s.sess.pendAddr, s.sess.cfg, true⟩ := rfl
@[simp] theorem suspEnter_ep0 (o : Origin) (s : State) : (suspEnter o s).ep0 = s.ep0 := rfl
@[simp] theorem suspEnter_ep1 (o : Origin) (s : State) : (suspEnter o s).ep1 = s.ep1 := rfl
@[simp] theorem suspEnter_ep2 (o : Origin) (s : State) : (suspEnter o s).ep2 = s.ep2 := rfl
@[simp] theorem suspEnter_ep3 (o : Origin) (s : State) : (suspEnter o s).ep3 = s.ep3 := rfl
@[simp] theorem suspEnter_ctl (o : Origin) (s : State) : (suspEnter o s).ctl = s.ctl := rfl
@[simp] theorem suspEnter_tx (o : Origin) (s : State) : (suspEnter o s).tx = s.tx := rfl
@[simp] theorem suspEnter_rx (o : Origin) (s : State) : (suspEnter o s).rx = s.rx := rfl
@[simp] theorem suspEnter_lc (o : Origin) (s : State) : (suspEnter o s).lc = s.lc := rfl
@[simp] theorem suspEnter_pwr (o : Origin) (s : State) : (suspEnter o s).pwr = ⟨.drainWait, o, s.pwr.wakeArm⟩ := rfl
@[simp] theorem suspEnter_mem (o : Origin) (s : State) : (suspEnter o s).mem = s.mem := rfl
@[simp] theorem suspEnter_fault (o : Origin) (s : State) : (suspEnter o s).fault = s.fault := rfl
@[simp] theorem suspEnter_lastFail (o : Origin) (s : State) : (suspEnter o s).lastFail = s.lastFail := rfl
@[simp] theorem suspEnter_out (o : Origin) (s : State) : (suspEnter o s).out = s.out ++ [.powerDown] := rfl
@[simp] theorem suspEnter_input (o : Origin) (s : State) : (suspEnter o s).input = s.input := rfl

@[simp] theorem wake_par (src : WakeSrc) (s : State) : (wake src s).par = s.par := by unfold wake wakeNow; split <;> (try split) <;> rfl
@[simp] theorem wake_addr (src : WakeSrc) (s : State) : (wake src s).sess.addr = s.sess.addr := by unfold wake wakeNow; split <;> (try split) <;> rfl
@[simp] theorem wake_pendAddr (src : WakeSrc) (s : State) : (wake src s).sess.pendAddr = s.sess.pendAddr := by unfold wake wakeNow; split <;> (try split) <;> rfl
@[simp] theorem wake_cfg (src : WakeSrc) (s : State) : (wake src s).sess.cfg = s.sess.cfg := by unfold wake wakeNow; split <;> (try split) <;> rfl
@[simp] theorem wake_cur (src : WakeSrc) (s : State) : (wake src s).ctl.cur = s.ctl.cur := by unfold wake wakeNow; split <;> (try split) <;> rfl
@[simp] theorem wake_ep1 (src : WakeSrc) (s : State) : (wake src s).ep1 = s.ep1 := by unfold wake wakeNow; split <;> (try split) <;> rfl
@[simp] theorem wake_ep2 (src : WakeSrc) (s : State) : (wake src s).ep2 = s.ep2 := by unfold wake wakeNow; split <;> (try split) <;> rfl
@[simp] theorem wake_ep3 (src : WakeSrc) (s : State) : (wake src s).ep3 = s.ep3 := by unfold wake wakeNow; split <;> (try split) <;> rfl
@[simp] theorem wake_tx (src : WakeSrc) (s : State) : (wake src s).tx = s.tx := by unfold wake wakeNow; split <;> (try split) <;> rfl
@[simp] theorem wake_rx (src : WakeSrc) (s : State) : (wake src s).rx = s.rx := by unfold wake wakeNow; split <;> (try split) <;> rfl
@[simp] theorem wake_lc (src : WakeSrc) (s : State) : (wake src s).lc = s.lc := by unfold wake wakeNow; split <;> (try split) <;> rfl
@[simp] theorem wake_mem (src : WakeSrc) (s : State) : (wake src s).mem = s.mem := by unfold wake wakeNow; split <;> (try split) <;> rfl
@[simp] theorem wake_fault (src : WakeSrc) (s : State) : (wake src s).fault = s.fault := by unfold wake wakeNow; split <;> (try split) <;> rfl
@[simp] theorem wake_lastFail (src : WakeSrc) (s : State) : (wake src s).lastFail = s.lastFail := by unfold wake wakeNow; split <;> (try split) <;> rfl
@[simp] theorem wake_out (src : WakeSrc) (s : State) : (wake src s).out = s.out := by unfold wake wakeNow; split <;> (try split) <;> rfl
@[simp] theorem wake_input (src : WakeSrc) (s : State) : (wake src s).input = s.input := by unfold wake wakeNow; split <;> (try split) <;> rfl

/-- What a byte reads as depends on the parameters, the line coding and the memory alone. -/
theorem known_congr {s t : State} (hp : t.par = s.par) (hl : t.lc = s.lc) (hm : t.mem = s.mem) (sp : Space) (x : Nat) :
    t.known sp x = s.known sp x := by
  unfold State.known State.table
  rw [hp, hl, hm]

theorem memRead_congr {s t : State} (hp : t.par = s.par) (hl : t.lc = s.lc) (hm : t.mem = s.mem) (sp : Space) (x : Nat) :
    t.memRead sp x = s.memRead sp x := by
  unfold State.memRead
  rw [known_congr hp hl hm]

theorem memReadN_congr {s t : State} (hp : t.par = s.par) (hl : t.lc = s.lc) (hm : t.mem = s.mem) (sp : Space) (x n : Nat) :
    t.memReadN sp x n = s.memReadN sp x n := by
  unfold State.memReadN
  simp only [memRead_congr hp hl hm]

end Sys2Proof.Machine
end

