-- ==== Sys2Proof/Laws/Memory.lean ====
section
/-! SUPPORT. The laws of memory: a read after a write, a write leaves every other byte alone, every write keeps the canonical
form, and the addresses of buffers and registers are word-aligned. -/

namespace Sys2Proof.Machine

/-! ### Cells -/

theorem cellsGet_cellsPut (x y : Nat) (b : Byte) (l : List Host.Cell) :
    cellsGet y (cellsPut x b l) = if y = x then some b else cellsGet y l := by
  induction l with
  | nil => simp [cellsPut, cellsGet, eq_comm]
  | cons c t ih =>
    obtain ⟨k, v⟩ := c
    unfold cellsPut
    split
    · by_cases h : y = x
      · simp [cellsGet, h]
      · simp [cellsGet, h, Ne.symm h]
    · split
      · subst k
        by_cases h : y = x
        · simp [cellsGet, h]
        · simp [cellsGet, h, Ne.symm h]
      · rename_i hne
        by_cases hk : k = y
        · subst hk
          simp [cellsGet, Ne.symm hne]
        · simp [cellsGet, hk, ih]

theorem cellsGet_cellsPutAll (x y : Nat) (bs : List Byte) (l : List Host.Cell) :
    cellsGet y (cellsPutAll x bs l) = if x ≤ y ∧ y < x + bs.length then bs[y - x]? else cellsGet y l := by
  induction bs generalizing x l with
  | nil => simp only [cellsPutAll, List.length_nil]; rw [if_neg (by omega)]
  | cons b bs ih =>
    simp only [cellsPutAll, ih, cellsGet_cellsPut, List.length_cons]
    by_cases h : x + 1 ≤ y ∧ y < x + 1 + bs.length
    · rw [if_pos h, if_pos (by omega), show y - x = (y - (x + 1)) + 1 by omega, List.getElem?_cons_succ]
    · rw [if_neg h]
      by_cases hy : y = x
      · subst hy
        simp
      · rw [if_neg hy, if_neg (by omega)]

theorem cellsWf_le {size lo lo' : Nat} {l : List Host.Cell} (hle : lo' ≤ lo) (h : cellsWf size lo l = true) :
    cellsWf size lo' l = true := by
  cases l with
  | nil => rfl
  | cons c t =>
    obtain ⟨k, v⟩ := c
    simp only [cellsWf, Bool.and_eq_true, decide_eq_true_eq] at h ⊢
    exact ⟨⟨by omega, h.1.2⟩, h.2⟩

theorem cellsWf_put {size x : Nat} (b : Byte) (hx : x < size) {l : List Host.Cell} {lo : Nat} (hlo : lo ≤ x)
    (h : cellsWf size lo l = true) : cellsWf size lo (cellsPut x b l) = true := by
  induction l generalizing lo with
  | nil => simp [cellsPut, cellsWf, hlo, hx]
  | cons c t ih =>
    obtain ⟨k, v⟩ := c
    simp only [cellsWf, Bool.and_eq_true, decide_eq_true_eq] at h
    unfold cellsPut
    split
    · simp only [cellsWf, Bool.and_eq_true, decide_eq_true_eq]
      exact ⟨⟨hlo, hx⟩, ⟨by omega, h.1.2⟩, h.2⟩
    · split
      · subst k
        simp only [cellsWf, Bool.and_eq_true, decide_eq_true_eq]
        exact ⟨⟨hlo, hx⟩, h.2⟩
      · simp only [cellsWf, Bool.and_eq_true, decide_eq_true_eq]
        exact ⟨h.1, ih (by omega) h.2⟩

theorem cellsWf_putAll {size : Nat} {bs : List Byte} {x : Nat} (hx : x + bs.length ≤ size) {l : List Host.Cell}
    (h : cellsWf size 0 l = true) : cellsWf size 0 (cellsPutAll x bs l) = true := by
  induction bs generalizing x l with
  | nil => exact h
  | cons b bs ih =>
    simp only [List.length_cons] at hx
    exact ih (by omega) (cellsWf_put b (by omega) (Nat.zero_le _) h)

/-! ### Memory -/

/-- The spaces the core writes byte by byte. -/
def isRam : Space → Bool
  | .ep0tx => true
  | .ep0rx => true
  | .ep1tx => true
  | .ep2rx => true
  | .ep2tx => true
  | .ring => true
  | .lc => false
  | .dev => false
  | .cfg => false
  | .str _ => false

theorem table_ram {sp : Space} (h : isRam sp = true) (s : State) : s.table sp = [] := by
  cases sp <;> first | rfl | cases h

theorem cells_write_same {sp : Space} (h : isRam sp = true) (x : Nat) (bs : List Byte) (m : Memory) :
    (m.write sp x bs).cells sp = cellsPutAll x bs (m.cells sp) := by
  cases sp <;> first | rfl | cases h

theorem cells_write_other {sp sp' : Space} (h : sp' ≠ sp) (x : Nat) (bs : List Byte) (m : Memory) :
    (m.write sp x bs).cells sp' = m.cells sp' := by
  cases sp <;> cases sp' <;> first | rfl | exact absurd rfl h

/-- The byte known at an offset after a write. -/
theorem known_write {sp : Space} (hr : isRam sp = true) (x : Nat) (bs : List Byte) (s : State) (sp' : Space) (y : Nat) :
    ({ s with mem := s.mem.write sp x bs } : State).known sp' y =
      if sp' = sp ∧ x ≤ y ∧ y < x + bs.length then bs[y - x]? else s.known sp' y := by
  by_cases hs : sp' = sp
  · subst hs
    have ht : ({ s with mem := s.mem.write sp' x bs } : State).table sp' = [] := table_ram hr _
    simp only [State.known, ht, table_ram hr s, List.getElem?_nil, cells_write_same hr, cellsGet_cellsPutAll, true_and]
  · simp only [hs, false_and, if_false]
    unfold State.known
    have ht : ({ s with mem := s.mem.write sp x bs } : State).table sp' = s.table sp' := by cases sp' <;> rfl
    rw [ht, cells_write_other hs]

/-- Read after write: the written bytes read as written, and every other byte as before. -/
theorem memRead_write {sp : Space} (hr : isRam sp = true) (x : Nat) (bs : List Byte) (s : State) (sp' : Space) (y : Nat) :
    ({ s with mem := s.mem.write sp x bs } : State).memRead sp' y =
      if sp' = sp ∧ x ≤ y ∧ y < x + bs.length then bs.getD (y - x) 0 else s.memRead sp' y := by
  unfold State.memRead
  rw [known_write hr]
  split
  · rename_i h
    have hlt : y - x < bs.length := by omega
    simp [List.getElem?_eq_getElem hlt]
  · rfl

@[simp] theorem memReadN_length (sp : Space) (x n : Nat) (s : State) : (s.memReadN sp x n).length = n := by
  simp [State.memReadN]

theorem memReadN_getD {sp : Space} {x n i : Nat} (s : State) (h : i < n) :
    (s.memReadN sp x n).getD i 0 = s.memRead sp (x + i) := by
  simp [State.memReadN, h]

/-- Reading back what was written. -/
theorem memReadN_write_same {sp : Space} (hr : isRam sp = true) (x : Nat) (bs : List Byte) (s : State) :
    ({ s with mem := s.mem.write sp x bs } : State).memReadN sp x bs.length = bs := by
  apply List.ext_getElem
  · simp
  · intro i h1 h2
    simp only [State.memReadN, List.getElem_map, List.getElem_range]
    rw [memRead_write hr]
    simp only [true_and]
    rw [if_pos (by omega)]
    simp [h2]

/-- A write inside a space keeps the canonical form. -/
theorem wf_write {p : Params} {m : Memory} {sp : Space} {x : Nat} {bs : List Byte} (hx : x + bs.length ≤ ramSize p sp)
    (h : m.wf p = true) : (m.write sp x bs).wf p = true := by
  simp only [Memory.wf, Bool.and_eq_true] at h ⊢
  obtain ⟨⟨⟨⟨⟨h0, h1⟩, h2⟩, h3⟩, h4⟩, h5⟩ := h
  cases sp <;> simp only [Memory.write] <;>
    first
      | exact ⟨⟨⟨⟨⟨cellsWf_putAll hx h0, h1⟩, h2⟩, h3⟩, h4⟩, h5⟩
      | exact ⟨⟨⟨⟨⟨h0, cellsWf_putAll hx h1⟩, h2⟩, h3⟩, h4⟩, h5⟩
      | exact ⟨⟨⟨⟨⟨h0, h1⟩, cellsWf_putAll hx h2⟩, h3⟩, h4⟩, h5⟩
      | exact ⟨⟨⟨⟨⟨h0, h1⟩, h2⟩, cellsWf_putAll hx h3⟩, h4⟩, h5⟩
      | exact ⟨⟨⟨⟨⟨h0, h1⟩, h2⟩, h3⟩, cellsWf_putAll hx h4⟩, h5⟩
      | exact ⟨⟨⟨⟨⟨h0, h1⟩, h2⟩, h3⟩, h4⟩, cellsWf_putAll hx h5⟩
      | exact ⟨⟨⟨⟨⟨h0, h1⟩, h2⟩, h3⟩, h4⟩, h5⟩

/-- Memory at power-on is in canonical form. -/
theorem wf_unwritten (p : Params) : Memory.unwritten.wf p = true := rfl

/-! ### Addresses -/

/-- Every buffer and register stands at a word-aligned address (R9, R46). -/
theorem epAddr_wordAligned {p : Params} {u : Mapped} {x : Nat} (h : epAddr p u = some x) : wordBytes p.epAddrMap ∣ x := by
  obtain ⟨w, -, rfl⟩ := Option.map_eq_some_iff.1 h
  exact ⟨w, Nat.mul_comm _ _⟩

/-- Every register of ep[0], ep[1] and ep[2] has an address (R46). -/
theorem epAddr_register (p : Params) {n : EpNum} (hn : n ≠ .ep3) (r : EpReg) : (epAddr p (.register n r)).isSome = true := by
  cases n <;> first | rfl | exact absurd rfl hn

end Sys2Proof.Machine
end

