-- ==== Sys2Proof/Laws/Decode.lean ====
section
/-! SUPPORT. Byte order (R42), the opcode table's masks as tests on the bytes of a packet, and the round trips of the operand
codecs. -/

namespace Sys2Proof
open Sys2Proof.Machine

/-! ### Little-endian joins and their bytes -/

/-- The bytes of a join of four bytes. -/
theorem byteOf32_append (b3 b2 b1 b0 : Byte) :
    byteOf32 (b3 ++ b2 ++ b1 ++ b0) 0 = b0 ∧ byteOf32 (b3 ++ b2 ++ b1 ++ b0) 1 = b1 ∧
    byteOf32 (b3 ++ b2 ++ b1 ++ b0) 2 = b2 ∧ byteOf32 (b3 ++ b2 ++ b1 ++ b0) 3 = b3 := by
  have bit (i j : Nat) (hj : j < 8) : (byteOf32 (b3 ++ b2 ++ b1 ++ b0) i).getLsbD j =
      if 8 * i + j < 8 then b0.getLsbD (8 * i + j) else if 8 * i + j - 8 < 8 then b1.getLsbD (8 * i + j - 8)
      else if 8 * i + j - 8 - 8 < 8 then b2.getLsbD (8 * i + j - 8 - 8) else b3.getLsbD (8 * i + j - 8 - 8 - 8) := by
    have h := BitVec.getLsbD_append (x := b3 ++ b2 ++ b1) (y := b0) (i := 8 * i + j)
    have h1 := BitVec.getLsbD_append (x := b3 ++ b2) (y := b1) (i := 8 * i + j - 8)
    have h2 := BitVec.getLsbD_append (x := b3) (y := b2) (i := 8 * i + j - 8 - 8)
    unfold byteOf32
    rw [BitVec.getLsbD_extractLsb', decide_eq_true hj, Bool.true_and]
    refine h.trans ?_
    rw [h1, h2]
  refine ⟨?_, ?_, ?_, ?_⟩ <;> apply BitVec.eq_of_getLsbD_eq <;> intro j hj <;> rw [bit _ j hj]
  · rw [if_pos (by omega), show 8 * 0 + j = j by omega]
  · rw [if_neg (by omega), if_pos (by omega), show 8 * 1 + j - 8 = j by omega]
  · rw [if_neg (by omega), if_neg (by omega), if_pos (by omega), show 8 * 2 + j - 8 - 8 = j by omega]
  · rw [if_neg (by omega), if_neg (by omega), if_neg (by omega), show 8 * 3 + j - 8 - 8 - 8 = j by omega]

@[simp] theorem byteOf32_le32_0 (b0 b1 b2 b3 : Byte) : byteOf32 (le32 b0 b1 b2 b3) 0 = b0 := (byteOf32_append b3 b2 b1 b0).1
@[simp] theorem byteOf32_le32_1 (b0 b1 b2 b3 : Byte) : byteOf32 (le32 b0 b1 b2 b3) 1 = b1 := (byteOf32_append b3 b2 b1 b0).2.1
@[simp] theorem byteOf32_le32_2 (b0 b1 b2 b3 : Byte) : byteOf32 (le32 b0 b1 b2 b3) 2 = b2 := (byteOf32_append b3 b2 b1 b0).2.2.1
@[simp] theorem byteOf32_le32_3 (b0 b1 b2 b3 : Byte) : byteOf32 (le32 b0 b1 b2 b3) 3 = b3 := (byteOf32_append b3 b2 b1 b0).2.2.2

/-- Two 32-bit values are equal when their four bytes are. -/
theorem eq_iff_bytes32 (k p : BitVec 32) :
    k = p ↔ byteOf32 k 0 = byteOf32 p 0 ∧ byteOf32 k 1 = byteOf32 p 1 ∧ byteOf32 k 2 = byteOf32 p 2 ∧
      byteOf32 k 3 = byteOf32 p 3 := by
  constructor
  · rintro rfl
    simp
  · rintro ⟨h0, h1, h2, h3⟩
    apply BitVec.eq_of_getLsbD_eq
    intro i hi
    have bit (j : Nat) (h : byteOf32 k j = byteOf32 p j) (i : Nat) (hi : i < 8) :
        k.getLsbD (8 * j + i) = p.getLsbD (8 * j + i) := by
      have := congrArg (fun v => v.getLsbD i) h
      simpa [byteOf32, hi] using this
    have hsplit : i = 8 * (i / 8) + i % 8 := by omega
    rw [hsplit]
    have h4 : i / 8 < 4 := by omega
    have h8 : i % 8 < 8 := by omega
    generalize i / 8 = q at *
    match q, h4 with
    | 0, _ => exact bit 0 h0 _ h8
    | 1, _ => exact bit 1 h1 _ h8
    | 2, _ => exact bit 2 h2 _ h8
    | 3, _ => exact bit 3 h3 _ h8

/-- A 32-bit value is the join of its bytes. -/
@[simp] theorem le32_byteOf32 (v : BitVec 32) : le32 (byteOf32 v 0) (byteOf32 v 1) (byteOf32 v 2) (byteOf32 v 3) = v := by
  rw [eq_iff_bytes32]
  simp

/-- A 16-bit value is the join of its bytes. -/
@[simp] theorem le16_byteOf16 (v : BitVec 16) : le16 (byteOf16 v 0) (byteOf16 v 1) = v := by
  apply BitVec.eq_of_getLsbD_eq
  intro i hi
  have h := BitVec.getLsbD_append (x := byteOf16 v 1) (y := byteOf16 v 0) (i := i)
  refine h.trans ?_
  unfold byteOf16
  by_cases hb : i < 8
  · rw [if_pos hb]
    simp [hb]
  · rw [if_neg hb, BitVec.getLsbD_extractLsb', decide_eq_true (show i - 8 < 8 by omega), Bool.true_and,
      show 8 * 1 + (i - 8) = i by omega]

/-- The bytes of a join of two bytes. -/
theorem byteOf16_le16 (lo hi : Byte) : byteOf16 (le16 lo hi) 0 = lo ∧ byteOf16 (le16 lo hi) 1 = hi := by
  have bit (i j : Nat) (hj : j < 8) : (byteOf16 (le16 lo hi) i).getLsbD j =
      if 8 * i + j < 8 then lo.getLsbD (8 * i + j) else hi.getLsbD (8 * i + j - 8) := by
    have h := BitVec.getLsbD_append (x := hi) (y := lo) (i := 8 * i + j)
    unfold byteOf16 le16
    rw [BitVec.getLsbD_extractLsb', decide_eq_true hj, Bool.true_and]
    exact h
  refine ⟨?_, ?_⟩ <;> apply BitVec.eq_of_getLsbD_eq <;> intro j hj <;> rw [bit _ j hj]
  · rw [if_pos (by omega), show 8 * 0 + j = j by omega]
  · rw [if_neg (by omega), show 8 * 1 + j - 8 = j by omega]

/-! ### Packets -/

@[simp] theorem packetBytes_length (r : SetupRequest) : (packetBytes r).length = 8 := rfl

/-- Decoding the bytes of a packet gives the packet. -/
@[simp] theorem packetOf_packetBytes (r : SetupRequest) : packetOf (packetBytes r) = some r := by
  simp [packetOf, packetBytes]

/-- The bytes of a decoded packet are the bytes it was decoded from. -/
theorem packetBytes_of_packetOf {data : List Byte} {r : SetupRequest} (h : packetOf data = some r) : packetBytes r = data := by
  unfold packetOf at h
  split at h
  · cases h
    simp [packetBytes, byteOf16_le16]
  · cases h

/-- Exactly the packets of eight bytes decode (R55, R79). -/
theorem packetOf_eq_none {data : List Byte} : packetOf data = none ↔ data.length ≠ 8 := by
  constructor
  · intro h hl
    match data, hl with
    | [p0, p1, p2, p3, p4, p5, p6, p7], _ => cases h
  · intro hl
    unfold packetOf
    split
    · exact absurd rfl hl
    · rfl

/-! ### The masks of the opcode table -/

theorem byteOf32_requestKey (r : SetupRequest) :
    byteOf32 (requestKey r) 0 = r.bmRequestType ∧ byteOf32 (requestKey r) 1 = r.bRequest ∧
    byteOf32 (requestKey r) 2 = r.wValueL ∧ byteOf32 (requestKey r) 3 = r.wValueH :=
  byteOf32_append r.wValueH r.wValueL r.bRequest r.bmRequestType

theorem byteOf32_and (k m : BitVec 32) (i : Nat) : byteOf32 (k &&& m) i = byteOf32 k i &&& byteOf32 m i := by
  unfold byteOf32
  apply BitVec.eq_of_getLsbD_eq
  intro j hj
  simp [hj]

/-- A row's test, byte by byte of the packet (R65). -/
theorem rowMatches_iff (r : SetupRequest) (row : RequestRow) :
    rowMatches (requestKey r) row = true ↔
      r.bmRequestType &&& byteOf32 row.mask 0 = byteOf32 row.pattern 0 ∧
      r.bRequest &&& byteOf32 row.mask 1 = byteOf32 row.pattern 1 ∧
      r.wValueL &&& byteOf32 row.mask 2 = byteOf32 row.pattern 2 ∧
      r.wValueH &&& byteOf32 row.mask 3 = byteOf32 row.pattern 3 := by
  obtain ⟨h0, h1, h2, h3⟩ := byteOf32_requestKey r
  unfold rowMatches
  rw [beq_iff_eq, eq_iff_bytes32]
  simp only [byteOf32_and, h0, h1, h2, h3]

theorem and_typeMask (b : Byte) : b &&& 0x60#8 = 0#8 ↔ b.extractLsb' 5 2 = 0 := by revert b; decide
theorem and_deviceMask (b : Byte) : b &&& 0x7f#8 = 0#8 ↔ b.extractLsb' 5 2 = 0 ∧ b.extractLsb' 0 5 = 0 := by revert b; decide
theorem and_endpointMask (b : Byte) : b &&& 0x7f#8 = 2#8 ↔ b.extractLsb' 5 2 = 0 ∧ b.extractLsb' 0 5 = 2 := by revert b; decide
theorem and_addressMask (b : Byte) : b &&& 0x80#8 = 0#8 ↔ b.toNat ≤ 127 := by revert b; decide
theorem and_configMask (b : Byte) : b &&& 0xfe#8 = 0#8 ↔ b.toNat ≤ 1 := by revert b; decide
theorem and_fullMask (b : Byte) : b &&& 0xff#8 = b := by revert b; decide
theorem and_noMask (b : Byte) : b &&& 0#8 = 0#8 := by revert b; decide

theorem wValue_eq_iff (r : SetupRequest) (v : BitVec 16) :
    wValue r = v ↔ r.wValueL = byteOf16 v 0 ∧ r.wValueH = byteOf16 v 1 := by
  constructor
  · rintro rfl
    exact ⟨(byteOf16_le16 _ _).1.symm, (byteOf16_le16 _ _).2.symm⟩
  · rintro ⟨h0, h1⟩
    unfold wValue
    rw [h0, h1, le16_byteOf16]

/-! ### The request decoder in the fields of R56 -/

theorem find_rows_cons (k : BitVec 32) (row : RequestRow) (l : List RequestRow) :
    List.find? (rowMatches k) (row :: l) = if rowMatches k row then some row else List.find? (rowMatches k) l := by
  simp only [List.find?]
  split <;> simp_all

/-- The first matching row of the table, as the checks of R57 to R60 and of R95, R96, R98 on the packet's fields. -/
theorem decodeRequest_eq (a : DevAddr) (r : SetupRequest) : decodeRequest a r =
   if isStandard r then
     if r.bRequest = 0 then .getStatus a r
     else if r.bRequest = 1 then
       if recipient r = 0 ∧ wValue r = 1 then .clearFeatureDevice a r
       else if recipient r = 2 ∧ wValue r = 0 then .clearFeatureEndpoint a r else .clearFeatureBad a r
     else if r.bRequest = 3 then
       if recipient r = 0 ∧ wValue r = 1 then .setFeatureDevice a r
       else if recipient r = 2 ∧ wValue r = 0 then .setFeatureEndpoint a r else .setFeatureBad a r
     else if r.bRequest = 5 then
       if r.wValueH = 0 ∧ r.wValueL.toNat ≤ 127 then .setAddress a r else .setAddressBad a r
     else if r.bRequest = 6 then
       if r.wValueH = 1 then .getDescriptorDevice a r else if r.wValueH = 2 then .getDescriptorConfig a r
       else if r.wValueH = 3 then .getDescriptorString a r else .getDescriptorBad a r
     else if r.bRequest = 8 then .getConfiguration a r
     else if r.bRequest = 9 then if r.wValueL.toNat ≤ 1 then .setConfiguration a r else .setConfigurationBad a r
     else .stdUnsupported a r
   else if r.bRequest = 0x20 then .setLineCoding a r
   else if r.bRequest = 0x21 then .getLineCoding a r
   else if r.bRequest = 0x22 then .setControlLineState a r
   else if r.bRequest = 0x65 then .resetDeviceToBootloader a r
   else .nonstdUnsupported a r := by
  unfold decodeRequest requestRows featureRows deviceRows otherRows
  simp only [List.cons_append, List.nil_append, find_rows_cons, rowMatches_iff, List.find?_nil]
  simp only [byteOf32, Nat.mul_zero, Nat.mul_one, Nat.reduceMul, BitVec.reduceExtractLsb',
    and_typeMask, and_deviceMask, and_endpointMask, and_addressMask, and_configMask, and_fullMask, and_noMask, true_and, and_true]
  have hs : isStandard r = true ↔ r.bmRequestType.extractLsb' 5 2 = 0 := by simp [isStandard, typeField]
  have hv1 : wValue r = 1 ↔ r.wValueL = 1#8 ∧ r.wValueH = 0#8 := wValue_eq_iff r 1
  have hv0 : wValue r = 0 ↔ r.wValueL = 0#8 ∧ r.wValueH = 0#8 := wValue_eq_iff r 0
  have hr (v) : recipient r = v ↔ r.bmRequestType.extractLsb' 0 5 = v := Iff.rfl
  simp only [hs, hv1, hv0, hr]
  generalize r.bmRequestType.extractLsb' 5 2 = ty
  generalize r.bmRequestType.extractLsb' 0 5 = rc
  generalize hb : r.bRequest = b
  generalize r.wValueL = vl
  generalize r.wValueH = vh
  by_cases h : ty = 0
  · simp only [h, true_and, if_true]
    by_cases h0 : b = 0#8
    · simp [h0]
    by_cases h1 : b = 1#8
    · subst h1
      simp
      split_ifs <;> rfl
    by_cases h3 : b = 3#8
    · subst h3
      simp
      split_ifs <;> rfl
    by_cases h5 : b = 5#8
    · subst h5
      simp [and_comm]
      split_ifs <;> rfl
    by_cases h6 : b = 6#8
    · subst h6
      simp
      split_ifs <;> rfl
    by_cases h8 : b = 8#8
    · simp [h8]
    by_cases h9 : b = 9#8
    · subst h9
      simp
      split_ifs <;> rfl
    simp [*]
  · simp only [eq_false h, false_and, if_false]
    split_ifs <;> first | rfl | simp_all

/-! ### Operands -/

@[simp] theorem decodeAddr_setWidth (a : DevAddr) : decodeAddr (a.setWidth 8) = some a := by
  revert a; decide

theorem setWidth_of_decodeAddr {b : Byte} {a : DevAddr} (h : decodeAddr b = some a) : a.setWidth 8 = b := by
  unfold decodeAddr at h
  split at h
  · rename_i hlt
    cases h
    apply BitVec.eq_of_toNat_eq
    rw [BitVec.toNat_setWidth, BitVec.toNat_setWidth]
    omega
  · cases h

@[simp] theorem decodeFlag_encodeFlag (b : Bool) : decodeFlag (encodeFlag b) = some b := by cases b <;> rfl

theorem encodeFlag_of_decodeFlag {b : Byte} {f : Bool} (h : decodeFlag b = some f) : encodeFlag f = b := by
  revert f b; decide

@[simp] theorem decodePid_encodePid (p : Pid) : decodePid (encodePid p) = some p := by cases p <;> rfl

theorem encodePid_of_decodePid {b : Byte} {p : Pid} (h : decodePid b = some p) : encodePid p = b := by
  unfold decodePid at h
  split at h
  · cases h; simp_all [encodePid]
  · split at h
    · cases h; simp_all [encodePid]
    · cases h

/-- A counted run of bytes is read back. -/
theorem decodeData_encode {data : List Byte} (h : data.length ≤ 255) (rest : List Byte) :
    decodeData (BitVec.ofNat 8 data.length) (data ++ rest) = .ok (data, rest) := by
  have hn : (BitVec.ofNat 8 data.length).toNat = data.length := by
    rw [BitVec.toNat_ofNat]
    omega
  unfold decodeData
  rw [hn, if_neg (by simp)]
  simp

theorem decodeData_ok {n : Byte} {l data rest : List Byte} (h : decodeData n l = .ok (data, rest)) :
    l = data ++ rest ∧ BitVec.ofNat 8 data.length = n ∧ data.length ≤ 255 := by
  unfold decodeData at h
  split at h
  · cases h
  · cases h
    have hlt : n.toNat < 256 := n.isLt
    refine ⟨(List.take_append_drop _ _).symm, ?_, ?_⟩
    · rw [List.length_take, Nat.min_eq_left (by omega)]
      simp
    · rw [List.length_take]
      omega

@[simp] theorem opToken_tokenCode (t e : BitVec 4) : opToken (tokenCode t e) = t := by revert t e; decide
@[simp] theorem opEndpoint_tokenCode (t e : BitVec 4) : opEndpoint (tokenCode t e) = e := by revert t e; decide

theorem tokenCode_of_fields (op : Byte) : tokenCode (opToken op) (opEndpoint op) = op := by revert op; decide

/-! ### Whole operations -/

/-- Decoding the operands of a SETUP from their encoding. -/
theorem decodeSetupOperands_encode (build : DevAddr → List Byte → Instr) (a : DevAddr) {data : List Byte}
    (h : data.length ≤ 255) (rest : List Byte) :
    decodeSetupOperands build (a.setWidth 8 :: (encodeData data ++ rest)) = .ok (build a data, rest) := by
  simp only [encodeData, List.cons_append, decodeSetupOperands, decodeAddr_setWidth, decodeData_encode h]

/-- Decoding the operands of an IN from their encoding. -/
theorem decodeInOperands_encode (build : DevAddr → Bool → Instr) (a : DevAddr) (acks : Bool) (rest : List Byte) :
    decodeInOperands build (a.setWidth 8 :: encodeFlag acks :: rest) = .ok (build a acks, rest) := by
  simp only [decodeInOperands, decodeAddr_setWidth, decodeFlag_encodeFlag]

/-- Decoding the operands of an OUT from their encoding. -/
theorem decodeOutOperands_encode (build : DevAddr → Pid → List Byte → Instr) (a : DevAddr) (pid : Pid) {data : List Byte}
    (h : data.length ≤ 255) (rest : List Byte) :
    decodeOutOperands build (a.setWidth 8 :: encodePid pid :: (encodeData data ++ rest)) = .ok (build a pid data, rest) := by
  simp only [encodeData, List.cons_append, decodeOutOperands, decodeAddr_setWidth, decodePid_encodePid, decodeData_encode h]

/-- What decodes as the operands of a SETUP is their encoding. -/
theorem decodeSetupOperands_ok {build : DevAddr → List Byte → Instr} {l rest : List Byte} {i : Instr}
    (h : decodeSetupOperands build l = .ok (i, rest)) :
    ∃ a data, i = build a data ∧ data.length ≤ 255 ∧ l = a.setWidth 8 :: (encodeData data ++ rest) := by
  unfold decodeSetupOperands at h
  split at h
  · split at h
    · cases h
    · rename_i ha
      split at h
      · cases h
      · rename_i hd
        cases h
        obtain ⟨h1, h2, h3⟩ := decodeData_ok hd
        exact ⟨_, _, rfl, h3, by rw [h1, ← setWidth_of_decodeAddr ha, ← h2]; rfl⟩
  · cases h

/-- What decodes as the operands of an IN is their encoding. -/
theorem decodeInOperands_ok {build : DevAddr → Bool → Instr} {l rest : List Byte} {i : Instr}
    (h : decodeInOperands build l = .ok (i, rest)) :
    ∃ a acks, i = build a acks ∧ l = a.setWidth 8 :: encodeFlag acks :: rest := by
  unfold decodeInOperands at h
  split at h
  · split at h
    · rename_i ha hk
      cases h
      exact ⟨_, _, rfl, by rw [← setWidth_of_decodeAddr ha, ← encodeFlag_of_decodeFlag hk]⟩
    · cases h
  · cases h

/-- What decodes as the operands of an OUT is their encoding. -/
theorem decodeOutOperands_ok {build : DevAddr → Pid → List Byte → Instr} {l rest : List Byte} {i : Instr}
    (h : decodeOutOperands build l = .ok (i, rest)) :
    ∃ a pid data, i = build a pid data ∧ data.length ≤ 255 ∧
      l = a.setWidth 8 :: encodePid pid :: (encodeData data ++ rest) := by
  unfold decodeOutOperands at h
  split at h
  · split at h
    · rename_i ha hp
      split at h
      · cases h
      · rename_i hd
        cases h
        obtain ⟨h1, h2, h3⟩ := decodeData_ok hd
        exact ⟨_, _, _, rfl, h3, by rw [h1, ← setWidth_of_decodeAddr ha, ← encodePid_of_decodePid hp, ← h2]; rfl⟩
    · cases h
  · cases h

/-- The instruction a SETUP token's encoding decodes to. -/
theorem decode_encodeSetup (ep : BitVec 4) (a : DevAddr) {data : List Byte} (h : data.length ≤ 255) (rest : List Byte) :
    decode (encodeSetup ep a data ++ rest) =
      .ok ((if ep = 0 then setupInstr a data else .setupUndeclaredEp ep a data), rest) := by
  simp only [encodeSetup, List.cons_append, decode, opToken_tokenCode, opEndpoint_tokenCode]
  rw [if_neg (by decide), if_neg (by decide), if_pos trivial]
  unfold decodeSetup
  rw [decodeSetupOperands_encode _ a h]
  split <;> rfl

/-- The instruction an IN token's encoding decodes to. -/
theorem decode_encodeIn (ep : BitVec 4) (a : DevAddr) (acks : Bool) (rest : List Byte) :
    decode (encodeIn ep a acks ++ rest) =
      .ok ((if ep = 0 then .inEp0 a acks else if ep = 1 then .inEp1 a acks else if ep = 2 then .inEp2 a acks
        else .inUndeclaredEp ep a acks), rest) := by
  simp only [encodeIn, List.cons_append, List.nil_append, decode, opToken_tokenCode, opEndpoint_tokenCode]
  rw [if_neg (by decide), if_pos trivial]
  unfold decodeIn
  rw [decodeInOperands_encode _ a acks]
  split_ifs <;> rfl

/-- The instruction an OUT token's encoding decodes to. -/
theorem decode_encodeOut (ep : BitVec 4) (a : DevAddr) (pid : Pid) {data : List Byte} (h : data.length ≤ 255)
    (rest : List Byte) :
    decode (encodeOut ep a pid data ++ rest) =
      .ok ((if ep = 0 then .outEp0 a pid data else if ep = 2 then .outEp2 a pid data
        else .outUndeclaredEp ep a pid data), rest) := by
  simp only [encodeOut, List.cons_append, decode, opToken_tokenCode, opEndpoint_tokenCode]
  rw [if_pos trivial]
  unfold decodeOut
  rw [decodeOutOperands_encode _ a pid h]
  split_ifs <;> rfl

/-- The instruction a request's encoding decodes to is its packet's first matching row. -/
theorem decode_encodeRequest (a : DevAddr) (r : SetupRequest) (rest : List Byte) :
    decode (encodeRequest a r ++ rest) = .ok (decodeRequest a r, rest) := by
  unfold encodeRequest
  rw [decode_encodeSetup 0 a (by simp), if_pos rfl]
  simp [setupInstr]

/-- Whatever row a packet decodes to, its encoding is that of the packet. -/
theorem encode_decodeRequest (a : DevAddr) (r : SetupRequest) : encode (decodeRequest a r) = encodeRequest a r := by
  rw [decodeRequest_eq]
  split_ifs <;> rfl

end Sys2Proof
end

