-- ==== Sys2Proof/Laws/Ops.lean ====
section
/-! SUPPORT. One lemma per shared operation that says once what it can do: the gates of R124 (what they answer, and what a next
state tells), the Setup step's parts, the cursor, the suspend sequence, and scripts. -/

namespace Sys2Proof.Machine

/-! ### The gates -/

theorem setupGate_running {s : State} (h : Running s) (run : State → State) : setupGate run s = .next (run s) := by
  simp [setupGate, unlessFaulted, h.1, h.2]

theorem tokenGate_running {s : State} (h : Running s) (a : DevAddr) (run : State → State) :
    tokenGate a run s = .next (run s) := by
  simp [tokenGate, unlessFaulted, h.1, h.2]

theorem mainGate_running {s : State} (h : Running s) (run : State → State) : mainGate run s = .next (run s) := by
  simp [mainGate, unlessFaulted, h.1, h.2]

theorem Addressed.running {a : DevAddr} {s : State} (h : Addressed a s) : Running s := ⟨h.1, h.2.1⟩

/-- A SETUP that has a next state ran in RUN, or woke the core. -/
theorem setupGate_next {run : State → State} {s t : State} (h : setupGate run s = .next t) :
    s.fault = none ∧ (s.pwr.state = .run ∧ t = run s ∨ s.pwr.state = .halt ∧ t = (wake .usb s).respond .none) := by
  unfold setupGate unlessFaulted at h
  split at h
  · cases h
  · rename_i hf
    refine ⟨hf, ?_⟩
    split at h <;> rename_i hp
    · cases h
      exact .inl ⟨hp, rfl⟩
    · cases h
    · cases h
      exact .inr ⟨hp, rfl⟩
    · cases h

/-- A token that has a next state ran in RUN, was NAKed in DRAIN_WAIT, or woke the core. -/
theorem tokenGate_next {a : DevAddr} {run : State → State} {s t : State} (h : tokenGate a run s = .next t) :
    s.fault = none ∧ (s.pwr.state = .run ∧ t = run s ∨
      s.pwr.state = .drainWait ∧ t = s.respond (if a = s.sess.addr then .nak else .none) ∨
      s.pwr.state = .halt ∧ t = (wake .usb s).respond .none) := by
  unfold tokenGate unlessFaulted at h
  split at h
  · cases h
  · rename_i hf
    refine ⟨hf, ?_⟩
    split at h <;> rename_i hp
    · cases h
      exact .inl ⟨hp, rfl⟩
    · cases h
      exact .inr (.inl ⟨hp, rfl⟩)
    · cases h
      exact .inr (.inr ⟨hp, rfl⟩)
    · cases h

/-- A main-loop operation that has a next state ran in RUN. -/
theorem mainGate_next {run : State → State} {s t : State} (h : mainGate run s = .next t) : Running s ∧ t = run s := by
  unfold mainGate unlessFaulted at h
  split at h
  · cases h
  · rename_i hf
    split at h <;> rename_i hp
    · cases h
      exact ⟨⟨hf, hp⟩, rfl⟩
    all_goals cases h

/-- A wake event that has a next state changed nothing, or woke the core from HALT. -/
theorem wakeGate_next {src : WakeSrc} {s t : State} (h : wakeGate src s = .next t) :
    s.fault = none ∧ (t = s ∧ (s.pwr.state = .run ∨ s.pwr.state = .drainWait) ∨ s.pwr.state = .halt ∧ t = wake src s) := by
  unfold wakeGate unlessFaulted at h
  split at h
  · cases h
  · rename_i hf
    refine ⟨hf, ?_⟩
    split at h <;> rename_i hp
    · cases h
      exact .inl ⟨rfl, .inl hp⟩
    · cases h
      exact .inl ⟨rfl, .inr hp⟩
    · cases h
      exact .inr ⟨hp, rfl⟩
    · cases h

/-- Every operation runs behind the gate its row of R124 names. -/
theorem exec_shape (i : Instr) :
    (opClass i = .setup ∧ ∃ run, ∀ s, exec i s = setupGate run s) ∨
    (opClass i = .token ∧ ∃ a run, tokenAddr i = some a ∧ ∀ s, exec i s = tokenGate a run s) ∨
    (opClass i = .mainLoop ∧ ∃ run, ∀ s, exec i s = mainGate run s) ∨
    (i = .resume ∧ ∀ s, exec i s = wakeGate .usb s) ∨ (i = .rxd0Low ∧ ∀ s, exec i s = wakeGate .rxd0 s) ∨
    (i = .rxd1Low ∧ ∀ s, exec i s = wakeGate .rxd1 s) ∨ i = .busReset ∨ i = .busSuspend ∨ ∃ u, i = .poll u := by
  cases i
  case resume => exact .inr (.inr (.inr (.inl ⟨rfl, fun _ => rfl⟩)))
  case rxd0Low => exact .inr (.inr (.inr (.inr (.inl ⟨rfl, fun _ => rfl⟩))))
  case rxd1Low => exact .inr (.inr (.inr (.inr (.inr (.inl ⟨rfl, fun _ => rfl⟩)))))
  case busReset => simp
  case busSuspend => simp
  case poll => simp
  all_goals
    first
      | exact .inl ⟨rfl, _, fun _ => rfl⟩
      | exact .inr (.inl ⟨rfl, _, _, rfl, fun _ => rfl⟩)
      | exact .inr (.inr (.inl ⟨rfl, _, fun _ => rfl⟩))

/-! ### The Setup step -/

theorem requestTransaction_addressed {a : DevAddr} {s : State} (h : a = s.sess.addr) (r : SetupRequest) (f : Handler) :
    requestTransaction a r f s = acceptedRequest r f s := by
  simp [requestTransaction, h]

theorem requestTransaction_foreign {a : DevAddr} {s : State} (h : a ≠ s.sess.addr) (r : SetupRequest) (f : Handler) :
    requestTransaction a r f s = s.respond .none := by
  simp [requestTransaction, h]

/-- The state a handler finds: the token acknowledged, the packet in EP0RX and decoded, the cursor empty (R79). -/
def prepared (r : SetupRequest) (s : State) : State :=
  { s with
    out := s.out ++ [.response .ack], mem := s.mem.write .ep0rx 0 (packetBytes r),
    ep0 := { s.ep0 with rxLen := 8 }, ctl := ⟨some r, r.bRequest, .empty, s.ctl.stage⟩ }

theorem acceptedRequest_eq (r : SetupRequest) (f : Handler) (s : State) :
    acceptedRequest r f s = finishSetup r (f r (prepared r s)) := rfl

/-- The bytes of EP0RX after the packet has landed. -/
theorem packetLands_write (r : SetupRequest) (s : State) : packetLands (s.mem.write .ep0rx 0 (packetBytes r)) r s := by
  intro sp x
  simp only [withMem]
  rw [memRead_write (by rfl)]
  simp

theorem packetAndAnswerLand_write (r : SetupRequest) (s : State) (bs : List Byte) (b : Nat → Byte)
    (hb : ∀ x, x < bs.length → bs.getD x 0 = b x) :
    packetAndAnswerLand ((s.mem.write .ep0rx 0 (packetBytes r)).write .ep0tx 0 bs) r bs.length b s := by
  intro sp x
  have h := memRead_write (sp := .ep0tx) rfl 0 bs (withMem (s.mem.write .ep0rx 0 (packetBytes r)) s) sp x
  simp only [withMem] at h ⊢
  rw [h, memRead_write (by rfl)]
  simp only [Nat.zero_le, Nat.zero_add, true_and, Nat.sub_zero, packetBytes_length]
  by_cases htx : sp = .ep0tx ∧ x < bs.length
  · have hrx : ¬ (sp = .ep0rx ∧ x < 8) := by
      rintro ⟨h, -⟩
      rw [htx.1] at h
      cases h
    rw [if_pos htx, if_neg hrx, if_pos htx, hb x htx.2]
  · rw [if_neg htx, if_neg htx]

/-! ### The cursor -/

/-- The table and the memory a cursor reads are not changed by the Setup step's own writes. -/
theorem cursorBytes_length {s : State} {sp : Space} (h : spaceOf s.ctl.cur.src = some sp) (n : Nat) :
    (cursorBytes n s).length = n := by
  simp [cursorBytes, h]

/-- A byte of a table is what reading its space gives. -/
theorem memRead_table {s : State} {sp : Space} {x : Nat} (h : x < (s.table sp).length) :
    s.memRead sp x = (s.table sp).getD x 0 := by
  simp [State.memRead, State.known, h]

/-! ### The suspend sequence -/

theorem wake_of_holds {src : WakeSrc} {s : State} (h : s.pwr.wakeArm.holds src = true) : wake src s = wakeNow s := by
  simp [wake, h]

/-- A wake has no effect, or ends in RUN with `suspended` false (R123). -/
theorem wake_cases (src : WakeSrc) (s : State) :
    wake src s = s ∨ wake src s = wakeNow s ∧ (wakeNow s).pwr.state = .run ∧ (wakeNow s).sess.suspended = false := by
  by_cases h : s.pwr.wakeArm.holds src = true
  · exact .inr ⟨wake_of_holds h, by unfold wakeNow; split <;> rfl, by unfold wakeNow; split <;> rfl⟩
  · exact .inl (if_neg h)

theorem wake_all {src : WakeSrc} {s : State} (h : s.pwr.wakeArm = .all) : wake src s = wakeNow s := by
  apply wake_of_holds
  rw [h]
  cases src <;> rfl

/-- What a wake leaves. -/
theorem wakeNow_eq (s : State) : wakeNow s = { s with
    sess := { s.sess with suspended := false }, pwr := ⟨.run, s.pwr.origin, .none⟩,
    ep0 := if s.pwr.origin = .feature then ⟨⟨.ack, .data1⟩, ⟨.ack, .data1⟩, 0, s.ep0.rxLen⟩ else s.ep0,
    ctl := if s.pwr.origin = .feature then { s.ctl with stage := .statusIn } else s.ctl } := by
  unfold wakeNow
  by_cases h : s.pwr.origin = .feature <;> simp [h, setupOk]

/-! ### The main loop -/

/-- All the RX step can do (R112). -/
theorem rxStep_eq (s : State) : rxStep s =
    if s.rx.count = 0 then s
    else { s with
      out := s.out ++ [.byteReceived (s.memRead .ep2rx s.rx.off)], rx := ⟨s.rx.count - 1, s.rx.off + 1⟩,
      ep2 := { s.ep2 with rx := ⟨if s.rx.count = 1 then .ack else s.ep2.rx.mode, s.ep2.rx.tog⟩ } } := by
  unfold rxStep
  by_cases h0 : s.rx.count = 0
  · simp [h0]
  · by_cases h1 : s.rx.count = 1
    · simp [h1, State.emit]
    · have : s.rx.count - 1 ≠ 0 := by omega
      simp [h0, h1, this, State.emit, Nat.pos_of_ne_zero h0]

/-- Whether the TX step arms a packet (R115). -/
abbrev drains (s : State) : Prop :=
  s.tx.busy = false ∧ 0 < s.tx.pend ∧ (39 ≤ s.tx.pend ∨ 100 < countedTimeout s.par s.tx)

/-- All the TX step can do (R115). -/
theorem txStep_eq (s : State) : txStep s =
    if s.sess.cfg = 1 then
      if drains s then { s with
        mem := s.mem.write .ep2tx 0 (s.memReadN .ring s.tx.r (drainLen s.par s.tx)),
        tx := ⟨s.tx.w, (s.tx.r + drainLen s.par s.tx) % txcap s.par, s.tx.pend - drainLen s.par s.tx, true, 0⟩,
        ep2 := { s.ep2 with txLen := drainLen s.par s.tx, tx := ⟨.ack, s.ep2.tx.tog⟩ } }
      else { s with tx := { s.tx with timeout := countedTimeout s.par s.tx } }
    else s := by
  unfold txStep configured
  by_cases hc : s.sess.cfg = 1
  · rw [if_pos hc, if_pos (by rw [hc]; rfl)]
    have hd : drainDue { s.tx with timeout := countedTimeout s.par s.tx } = true ↔ drains s := by
      simp [drainDue, drains, txThreshold, txTimeout, and_assoc]
    by_cases h : drains s
    · rw [if_pos h]
      exact (if_pos (hd.2 h)).trans rfl
    · rw [if_neg h]
      exact if_neg fun h' => h (hd.1 h')
  · rw [if_neg hc, if_neg (by simpa using hc)]

/-- A tick in RUN. -/
theorem exec_tick {s : State} (h : Running s) : exec .tick s = .next (txStep (rxStep s)) :=
  mainGate_running h fun s => txStep (rxStep s)

/-- What the TX step leaves alone: the session, the receive side, the outputs, and the bytes of EP2RX. -/
theorem txStep_frame (s : State) : (txStep s).fault = s.fault ∧ (txStep s).pwr = s.pwr ∧ (txStep s).sess = s.sess ∧
    (txStep s).par = s.par ∧ (txStep s).rx = s.rx ∧ (txStep s).ep2.rx = s.ep2.rx ∧ (txStep s).out = s.out ∧
    ∀ x, (txStep s).memRead .ep2rx x = s.memRead .ep2rx x := by
  rw [txStep_eq]
  split_ifs <;> exact ⟨rfl, rfl, rfl, rfl, rfl, rfl, rfl, fun _ => rfl⟩

/-- What the RX step leaves alone: the session, the transmit side, and every byte of memory. -/
theorem rxStep_frame (s : State) : (rxStep s).fault = s.fault ∧ (rxStep s).pwr = s.pwr ∧ (rxStep s).sess = s.sess ∧
    (rxStep s).par = s.par ∧ (rxStep s).tx = s.tx ∧ (rxStep s).ep2.tx = s.ep2.tx ∧ (rxStep s).ep2.txLen = s.ep2.txLen ∧
    (rxStep s).mem = s.mem := by
  rw [rxStep_eq]
  split_ifs <;> exact ⟨rfl, rfl, rfl, rfl, rfl, rfl, rfl, rfl⟩

/-! ### Scripts -/

theorem execAll_cons_next {i : Instr} {is : List Instr} {s t : State} (h : exec i s = .next t) :
    execAll (i :: is) s = execAll is t := by
  simp [execAll, h]

theorem execAll_append {is js : List Instr} {s t : State} (h : execAll is s = .next t) :
    execAll (is ++ js) s = execAll js t := by
  induction is generalizing s with
  | nil =>
    cases h
    rfl
  | cons i is ih =>
    simp only [execAll] at h
    split at h
    · rename_i u hu
      simp only [List.cons_append, execAll, hu]
      exact ih h
    all_goals cases h

end Sys2Proof.Machine
end

