-- ==== Sys2Proof/Laws/PerInstr.lean ====
section
/-! SUPPORT. Laws made per instruction. `OperationCode`: the encoding of an instruction starts with the operation code R68
gives its operation and endpoint (a request is a SETUP to endpoint 0, R65). -/

namespace Sys2Proof.Laws.OperationCode

/-- The code of R68 for an instruction; the token codes to undeclared endpoints carry the endpoint in bits 3..0. -/
def code : Instr → Byte
  | .getStatus _ _ => 0x30
  | .clearFeatureDevice _ _ => 0x30
  | .clearFeatureEndpoint _ _ => 0x30
  | .clearFeatureBad _ _ => 0x30
  | .setFeatureDevice _ _ => 0x30
  | .setFeatureEndpoint _ _ => 0x30
  | .setFeatureBad _ _ => 0x30
  | .setAddress _ _ => 0x30
  | .setAddressBad _ _ => 0x30
  | .getDescriptorDevice _ _ => 0x30
  | .getDescriptorConfig _ _ => 0x30
  | .getDescriptorString _ _ => 0x30
  | .getDescriptorBad _ _ => 0x30
  | .getConfiguration _ _ => 0x30
  | .setConfiguration _ _ => 0x30
  | .setConfigurationBad _ _ => 0x30
  | .stdUnsupported _ _ => 0x30
  | .setLineCoding _ _ => 0x30
  | .getLineCoding _ _ => 0x30
  | .setControlLineState _ _ => 0x30
  | .resetDeviceToBootloader _ _ => 0x30
  | .nonstdUnsupported _ _ => 0x30
  | .setup _ _ => 0x30
  | .setupUndeclaredEp ep _ _ => 3#4 ++ ep
  | .inEp0 _ _ => 0x20
  | .inEp1 _ _ => 0x21
  | .inEp2 _ _ => 0x22
  | .inUndeclaredEp ep _ _ => 2#4 ++ ep
  | .outEp0 _ _ _ => 0x00
  | .outEp2 _ _ _ => 0x02
  | .outUndeclaredEp ep _ _ _ => 0#4 ++ ep
  | .busReset => 0x40
  | .busSuspend => 0x41
  | .resume => 0x42
  | .rxd0Low => 0x43
  | .rxd1Low => 0x44
  | .poll _ => 0x48
  | .tick => 0x80
  | .enq _ => 0x81
  | .emptyQuery => 0x82

/-- The first byte of the encoding is the code. -/
def Statement (i : Instr) : Prop := (encode i).head? = some (code i)

theorem getStatus (a : DevAddr) (r : SetupRequest) : Statement (.getStatus a r) := rfl
theorem clearFeatureDevice (a : DevAddr) (r : SetupRequest) : Statement (.clearFeatureDevice a r) := rfl
theorem clearFeatureEndpoint (a : DevAddr) (r : SetupRequest) : Statement (.clearFeatureEndpoint a r) := rfl
theorem clearFeatureBad (a : DevAddr) (r : SetupRequest) : Statement (.clearFeatureBad a r) := rfl
theorem setFeatureDevice (a : DevAddr) (r : SetupRequest) : Statement (.setFeatureDevice a r) := rfl
theorem setFeatureEndpoint (a : DevAddr) (r : SetupRequest) : Statement (.setFeatureEndpoint a r) := rfl
theorem setFeatureBad (a : DevAddr) (r : SetupRequest) : Statement (.setFeatureBad a r) := rfl
theorem setAddress (a : DevAddr) (r : SetupRequest) : Statement (.setAddress a r) := rfl
theorem setAddressBad (a : DevAddr) (r : SetupRequest) : Statement (.setAddressBad a r) := rfl
theorem getDescriptorDevice (a : DevAddr) (r : SetupRequest) : Statement (.getDescriptorDevice a r) := rfl
theorem getDescriptorConfig (a : DevAddr) (r : SetupRequest) : Statement (.getDescriptorConfig a r) := rfl
theorem getDescriptorString (a : DevAddr) (r : SetupRequest) : Statement (.getDescriptorString a r) := rfl
theorem getDescriptorBad (a : DevAddr) (r : SetupRequest) : Statement (.getDescriptorBad a r) := rfl
theorem getConfiguration (a : DevAddr) (r : SetupRequest) : Statement (.getConfiguration a r) := rfl
theorem setConfiguration (a : DevAddr) (r : SetupRequest) : Statement (.setConfiguration a r) := rfl
theorem setConfigurationBad (a : DevAddr) (r : SetupRequest) : Statement (.setConfigurationBad a r) := rfl
theorem stdUnsupported (a : DevAddr) (r : SetupRequest) : Statement (.stdUnsupported a r) := rfl
theorem setLineCoding (a : DevAddr) (r : SetupRequest) : Statement (.setLineCoding a r) := rfl
theorem getLineCoding (a : DevAddr) (r : SetupRequest) : Statement (.getLineCoding a r) := rfl
theorem setControlLineState (a : DevAddr) (r : SetupRequest) : Statement (.setControlLineState a r) := rfl
theorem resetDeviceToBootloader (a : DevAddr) (r : SetupRequest) : Statement (.resetDeviceToBootloader a r) := rfl
theorem nonstdUnsupported (a : DevAddr) (r : SetupRequest) : Statement (.nonstdUnsupported a r) := rfl
theorem setup (a : DevAddr) (data : List Byte) : Statement (.setup a data) := rfl
theorem setupUndeclaredEp (ep : BitVec 4) (a : DevAddr) (data : List Byte) : Statement (.setupUndeclaredEp ep a data) := rfl
theorem inEp0 (a : DevAddr) (acks : Bool) : Statement (.inEp0 a acks) := rfl
theorem inEp1 (a : DevAddr) (acks : Bool) : Statement (.inEp1 a acks) := rfl
theorem inEp2 (a : DevAddr) (acks : Bool) : Statement (.inEp2 a acks) := rfl
theorem inUndeclaredEp (ep : BitVec 4) (a : DevAddr) (acks : Bool) : Statement (.inUndeclaredEp ep a acks) := rfl
theorem outEp0 (a : DevAddr) (pid : Pid) (data : List Byte) : Statement (.outEp0 a pid data) := rfl
theorem outEp2 (a : DevAddr) (pid : Pid) (data : List Byte) : Statement (.outEp2 a pid data) := rfl
theorem outUndeclaredEp (ep : BitVec 4) (a : DevAddr) (pid : Pid) (data : List Byte) : Statement (.outUndeclaredEp ep a pid data) := rfl
theorem busReset : Statement .busReset := rfl
theorem busSuspend : Statement .busSuspend := rfl
theorem resume : Statement .resume := rfl
theorem rxd0Low : Statement .rxd0Low := rfl
theorem rxd1Low : Statement .rxd1Low := rfl
theorem poll (uart : Bool) : Statement (.poll uart) := rfl
theorem tick : Statement .tick := rfl
theorem enq (b : Byte) : Statement (.enq b) := rfl
theorem emptyQuery : Statement .emptyQuery := rfl

end Sys2Proof.Laws.OperationCode
end

