-- ==== Sys2Proof/Laws/Requests.lean ====
section
/-! SUPPORT. Everything a Setup request can do: the nine shapes of a handler's result, which row has which, and what the Setup
step makes of each. -/

namespace Sys2Proof.Machine

/-- What the handler of row `i` may give for the packet `r`, in the state `s` the Setup step has prepared. -/
inductive RequestResult (i : Instr) (r : SetupRequest) (s : State) : SetupResult × State → Prop where
  | failed (k : FailKind) : RequestResult i r s (.fail k, s)
  | accepted : RequestResult i r s (.ok 0, s)
  | answered (n : Nat) (bs : List Byte) (hn : n ≤ bs.length) (hb : bs.length ≤ 2) :
      RequestResult i r s (.ok n, s.memWrite .ep0tx 0 bs)
  | feature (n : EpNum) (d : Dir) (m : Mode) (hm : d = .tx → m ≠ .ack) (hx : halfOfIndex r.wIndexL = some (n, d))
      (hi : ∃ a, i = .clearFeatureEndpoint a r ∨ i = .setFeatureEndpoint a r) :
      RequestResult i r s (.ok 0, s.setHalf n d ⟨m, .data0⟩)
  | address (hi : ∃ a, i = .setAddress a r) :
      RequestResult i r s (.ok 0, { s with sess := { s.sess with pendAddr := r.wValueL.setWidth 7 } })
  | configuration (v : BitVec 1) (hi : ∃ a, i = .setConfiguration a r) :
      RequestResult i r s (.ok 0, { s with sess := { s.sess with cfg := v } })
  | cursor (src : CursorSrc) (sp : Space) (hsp : spaceOf src = some sp) (ht : isRam sp = false) :
      RequestResult i r s (startCursor r src s)
  | sleep (hi : ∃ a, i = .setFeatureDevice a r) : RequestResult i r s (.sleep, s)
  | exit (hi : ∃ a, i = .resetDeviceToBootloader a r) :
      RequestResult i r s (.noReturn, { s.emit .bootloaderJump with pwr := { s.pwr with state := .exited } })

theorem descriptorSrc_space {p : Params} {r : SetupRequest} {src : CursorSrc} (h : descriptorSrc p r = some src) :
    ∃ sp, spaceOf src = some sp ∧ isRam sp = false := by
  unfold descriptorSrc at h
  split_ifs at h <;> cases h
  · exact ⟨.dev, rfl, rfl⟩
  · exact ⟨.cfg, rfl, rfl⟩
  · exact ⟨.str r.wValueL, rfl, rfl⟩

theorem getDescriptor_result (i : Instr) (r : SetupRequest) (s : State) : RequestResult i r s (handleGetDescriptor r s) := by
  unfold handleGetDescriptor
  split
  · rename_i src h
    obtain ⟨sp, h1, h2⟩ := descriptorSrc_space h
    exact .cursor src sp h1 h2
  · exact .failed _

theorem endpointFeature_result {i : Instr} {r : SetupRequest} (m : Dir → Mode) (hm : m .tx ≠ .ack) (s : State)
    (hi : ∃ a, i = .clearFeatureEndpoint a r ∨ i = .setFeatureEndpoint a r) :
    RequestResult i r s (handleEndpointFeature m r s) := by
  unfold handleEndpointFeature
  split
  · exact .failed _
  · split
    · exact .failed _
    · rename_i n d h
      exact .feature n d (m d) (by rintro rfl; exact hm) h hi

/-- Every request row is the Setup transaction of its packet, by a handler whose result has one of the nine shapes. -/
theorem exec_request {i : Instr} {a : DevAddr} {r : SetupRequest} (hi : requestOf i = some (a, r)) (hs : ∀ b d, i ≠ .setup b d) :
    ∃ f : Handler, (∀ s, exec i s = setupGate (requestTransaction a r f) s) ∧ ∀ s, RequestResult i r s (f r s) := by
  cases i
  case setup b d => exact absurd rfl (hs b d)
  all_goals
    simp only [requestOf, reduceCtorEq, Option.some.injEq, Prod.mk.injEq] at hi
    try (obtain ⟨rfl, rfl⟩ := hi)
  case getStatus => exact ⟨handleGetStatus, fun _ => rfl, fun s => .answered _ _ (Nat.min_le_right _ _) (Nat.le_refl 2)⟩
  case clearFeatureDevice =>
    refine ⟨handleClearFeatureDevice, fun _ => rfl, fun s => ?_⟩
    unfold handleClearFeatureDevice
    split_ifs
    · exact .failed _
    · exact .failed _
    · exact .accepted
  case clearFeatureEndpoint =>
    exact ⟨_, fun _ => rfl, fun s => endpointFeature_result _ (by decide) s ⟨_, .inl rfl⟩⟩
  case clearFeatureBad => exact ⟨handleUnsupported, fun _ => rfl, fun s => .failed _⟩
  case setFeatureDevice =>
    refine ⟨handleSetFeatureDevice, fun _ => rfl, fun s => ?_⟩
    unfold handleSetFeatureDevice
    split_ifs
    · exact .failed _
    · exact .failed _
    · exact .sleep ⟨_, rfl⟩
  case setFeatureEndpoint =>
    exact ⟨_, fun _ => rfl, fun s => endpointFeature_result _ (by decide) s ⟨_, .inr rfl⟩⟩
  case setFeatureBad => exact ⟨handleUnsupported, fun _ => rfl, fun s => .failed _⟩
  case setAddress =>
    refine ⟨handleSetAddress, fun _ => rfl, fun s => ?_⟩
    unfold handleSetAddress
    split
    · exact .failed _
    · exact .address ⟨_, rfl⟩
  case setAddressBad => exact ⟨handleUnsupported, fun _ => rfl, fun s => .failed _⟩
  case getDescriptorDevice => exact ⟨_, fun _ => rfl, fun s => getDescriptor_result _ _ s⟩
  case getDescriptorConfig => exact ⟨_, fun _ => rfl, fun s => getDescriptor_result _ _ s⟩
  case getDescriptorString => exact ⟨_, fun _ => rfl, fun s => getDescriptor_result _ _ s⟩
  case getDescriptorBad => exact ⟨handleUnsupported, fun _ => rfl, fun s => .failed _⟩
  case getConfiguration =>
    exact ⟨handleGetConfiguration, fun _ => rfl, fun s => .answered _ _ (Nat.min_le_right _ _) (Nat.le_succ 1)⟩
  case setConfiguration =>
    refine ⟨handleSetConfiguration, fun _ => rfl, fun s => ?_⟩
    unfold handleSetConfiguration
    split
    · exact .failed _
    · exact .configuration _ ⟨_, rfl⟩
  case setConfigurationBad => exact ⟨handleUnsupported, fun _ => rfl, fun s => .failed _⟩
  case stdUnsupported => exact ⟨handleUnsupported, fun _ => rfl, fun s => .failed _⟩
  case setLineCoding => exact ⟨handleSetLineCoding, fun _ => rfl, fun s => .accepted⟩
  case getLineCoding => exact ⟨handleGetLineCoding, fun _ => rfl, fun s => .cursor .lc .lc rfl rfl⟩
  case setControlLineState => exact ⟨handleSetControlLineState, fun _ => rfl, fun s => .accepted⟩
  case resetDeviceToBootloader => exact ⟨handleBootloader, fun _ => rfl, fun s => .exit ⟨_, rfl⟩⟩
  case nonstdUnsupported => exact ⟨handleUnsupported, fun _ => rfl, fun s => .failed _⟩

/-! ### What applying a result leaves alone -/

@[simp] theorem finishSetup_par (r : SetupRequest) (p : SetupResult × State) : (finishSetup r p).par = p.2.par := by
  obtain ⟨res, u⟩ := p
  cases res <;> rfl
@[simp] theorem finishSetup_ep1 (r : SetupRequest) (p : SetupResult × State) : (finishSetup r p).ep1 = p.2.ep1 := by
  obtain ⟨res, u⟩ := p
  cases res <;> rfl
@[simp] theorem finishSetup_ep2 (r : SetupRequest) (p : SetupResult × State) : (finishSetup r p).ep2 = p.2.ep2 := by
  obtain ⟨res, u⟩ := p
  cases res <;> rfl
@[simp] theorem finishSetup_ep3 (r : SetupRequest) (p : SetupResult × State) : (finishSetup r p).ep3 = p.2.ep3 := by
  obtain ⟨res, u⟩ := p
  cases res <;> rfl
@[simp] theorem finishSetup_tx (r : SetupRequest) (p : SetupResult × State) : (finishSetup r p).tx = p.2.tx := by
  obtain ⟨res, u⟩ := p
  cases res <;> rfl
@[simp] theorem finishSetup_rx (r : SetupRequest) (p : SetupResult × State) : (finishSetup r p).rx = p.2.rx := by
  obtain ⟨res, u⟩ := p
  cases res <;> rfl
@[simp] theorem finishSetup_lc (r : SetupRequest) (p : SetupResult × State) : (finishSetup r p).lc = p.2.lc := by
  obtain ⟨res, u⟩ := p
  cases res <;> rfl
@[simp] theorem finishSetup_mem (r : SetupRequest) (p : SetupResult × State) : (finishSetup r p).mem = p.2.mem := by
  obtain ⟨res, u⟩ := p
  cases res <;> rfl
@[simp] theorem finishSetup_fault (r : SetupRequest) (p : SetupResult × State) : (finishSetup r p).fault = p.2.fault := by
  obtain ⟨res, u⟩ := p
  cases res <;> rfl
@[simp] theorem finishSetup_cur (r : SetupRequest) (p : SetupResult × State) : (finishSetup r p).ctl.cur = p.2.ctl.cur := by
  obtain ⟨res, u⟩ := p
  cases res <;> rfl
@[simp] theorem finishSetup_addr (r : SetupRequest) (p : SetupResult × State) : (finishSetup r p).sess.addr = p.2.sess.addr := by
  obtain ⟨res, u⟩ := p
  cases res <;> rfl
@[simp] theorem finishSetup_pendAddr (r : SetupRequest) (p : SetupResult × State) : (finishSetup r p).sess.pendAddr = p.2.sess.pendAddr := by
  obtain ⟨res, u⟩ := p
  cases res <;> rfl
@[simp] theorem finishSetup_cfg (r : SetupRequest) (p : SetupResult × State) : (finishSetup r p).sess.cfg = p.2.sess.cfg := by
  obtain ⟨res, u⟩ := p
  cases res <;> rfl


/-! ### Requests in RUN, and the cursor -/

/-- An addressed request in RUN runs its handler. -/
theorem requestGate_addressed {a : DevAddr} {s : State} (h : Addressed a s) (r : SetupRequest) (f : Handler) :
    setupGate (requestTransaction a r f) s = .next (acceptedRequest r f s) := by
  rw [setupGate_running h.running, requestTransaction_addressed h.2.2]

/-- What a request that starts a cursor over the table of `sp` leaves (R79, R82, R84, R85). -/
theorem startCursor_lands (r : SetupRequest) (src : CursorSrc) (sp : Space) (hsp : spaceOf src = some sp) (s : State)
    (hst : stageAfterOk r = if r.wLength = 0 then .statusIn else .dataIn) :
    ∃ m n rest, n = min (min r.wLength.toNat (s.table sp).length) 64 ∧
      n + rest = min r.wLength.toNat (s.table sp).length ∧
      acceptedRequest r (fun r s => startCursor r src s) s = { s with
        mem := m, out := s.out ++ [.response .ack], ep0 := ep0Ok n,
        ctl := ⟨some r, r.bRequest, ⟨src, n, rest⟩, if r.wLength = 0 then .statusIn else .dataIn⟩ } ∧
      packetAndAnswerLand m r n (fun x => (s.table sp).getD x 0) s := by
  let s0 : State := { s with
    out := s.out ++ [.response .ack], mem := s.mem.write .ep0rx 0 (packetBytes r),
    ep0 := { s.ep0 with rxLen := 8 }, ctl := ⟨some r, r.bRequest, .empty, s.ctl.stage⟩ }
  have ht : s0.table sp = s.table sp := by cases sp <;> rfl
  let L := min r.wLength.toNat (s.table sp).length
  let n := min L 64
  let s1 := cursorOpen r src (tableLen src s0) s0
  have hL : tableLen src s0 = (s.table sp).length := by simp [tableLen, hsp, ht]
  have hn : cursorLen s1 = n := by simp [cursorLen, s1, cursorOpen, hL, n, L, maxPkt]
  have hb : cursorBytes n s1 = s1.memReadN sp 0 n := by simp [cursorBytes, s1, cursorOpen, hsp]
  have hlen : (cursorBytes n s1).length = n := by rw [hb]; simp
  refine ⟨(s.mem.write .ep0rx 0 (packetBytes r)).write .ep0tx 0 (cursorBytes n s1), n, L - n, rfl, by omega, ?_, ?_⟩
  · rw [acceptedRequest_eq]
    show finishSetup r (.ok (cursorLen s1), cursorLoad s1) = _
    simp only [finishSetup, cursorLoad, hn, setupOk, hst]
    simp [s1, s0, cursorOpen, hL, n, L, ep0Ok]
  · have h := packetAndAnswerLand_write r s (cursorBytes n s1) (fun x => (s.table sp).getD x 0) ?_
    · rw [hlen] at h
      exact h
    · intro x hx
      rw [hlen] at hx
      rw [hb, memReadN_getD _ hx, Nat.zero_add]
      have ht1 : s1.table sp = s.table sp := by cases sp <;> rfl
      rw [memRead_table (by rw [ht1]; omega), ht1]

end Sys2Proof.Machine
end

