-- ==== Sys2Proof/Laws/Tokens.lean ====
section
/-! SUPPORT. Everything an IN, an OUT and a SETUP token can do in RUN, and what the completion handlers of EP0 leave. -/

namespace Sys2Proof.Machine

/-- An IN is answered by the address filter or the mode alone, or it sends the armed packet. -/
theorem inTransaction_cases (n : EpNum) (sp : Space) (f : State → State) (a : DevAddr) (acks : Bool) (s : State) :
    (∃ h, inTransaction n sp f a acks s = s.respond h) ∨
    (a = s.sess.addr ∧ (s.half n .tx).mode = .ack ∧
      let s1 := s.respond (.data (s.half n .tx).tog (s.memReadN sp 0 (s.txLen n)))
      inTransaction n sp f a acks s = if acks then f (advance n .tx s1) else s1) := by
  unfold inTransaction
  split
  · exact .inl ⟨_, rfl⟩
  · rename_i ha
    split <;> rename_i hm
    · exact .inl ⟨_, rfl⟩
    · exact .inl ⟨_, rfl⟩
    · exact .inr ⟨Decidable.not_not.1 ha, hm, rfl⟩

/-- An OUT is answered by the address filter or the mode alone, breaches the host contract, or is accepted. -/
theorem outTransaction_cases (n : EpNum) (sp : Space) (f : Bool → State → State) (a : DevAddr) (pid : Pid) (data : List Byte)
    (s : State) :
    (∃ h, outTransaction n sp f a pid data s = s.respond h) ∨
    outTransaction n sp f a pid data s = s.raise .hostContract ∨
    (a = s.sess.addr ∧ data.length ≤ 64 ∧ (s.half n .rx).mode = .ack ∧
      outTransaction n sp f a pid data s = acceptOut n sp f pid data s) := by
  unfold outTransaction
  split
  · exact .inl ⟨_, rfl⟩
  · rename_i ha
    split
    · exact .inr (.inl rfl)
    · rename_i hd
      split <;> rename_i hm
      · exact .inl ⟨_, rfl⟩
      · exact .inl ⟨_, rfl⟩
      · exact .inr (.inr ⟨Decidable.not_not.1 ha, Nat.not_lt.1 hd, hm, rfl⟩)

/-- A SETUP that is no request is filtered, breaches the host contract, or fails as malformed. -/
theorem setupTransaction_cases (a : DevAddr) (data : List Byte) (s : State) :
    setupTransaction a data s = s.respond .none ∨ setupTransaction a data s = s.raise .hostContract ∨
    (data.length ≤ 64 ∧ data.length ≠ 8 ∧
      setupTransaction a data s = setupFail .malformedRequest (acceptSetup data s)) ∨
    ∃ r, data = packetBytes r ∧ setupTransaction a data s = acceptedRequest r dispatchRequest s := by
  unfold setupTransaction
  split
  · exact .inl rfl
  · split
    · exact .inr (.inl rfl)
    · rename_i hd
      split
      · rename_i r h
        exact .inr (.inr (.inr ⟨r, (packetBytes_of_packetOf h).symm, rfl⟩))
      · rename_i h
        exact .inr (.inr (.inl ⟨Nat.not_lt.1 hd, packetOf_eq_none.1 h, rfl⟩))

/-- An undeclared-endpoint token is filtered, or breaches the host contract. -/
theorem undeclaredToken_cases (a : DevAddr) (s : State) :
    undeclaredToken a s = s.respond .none ∨ undeclaredToken a s = s.raise .hostContract := by
  unfold undeclaredToken
  split
  · exact .inl rfl
  · exact .inr rfl

/-- The stage after an EP0 IN completion (R30). -/
def stageAfterIn (g : Stage) : Stage := if g = .statusIn then .idle else g

theorem statusDone_eq (s : State) : statusDone s = { s with ctl := { s.ctl with stage := stageAfterIn s.ctl.stage } } := by
  unfold statusDone stageAfterIn
  by_cases h : s.ctl.stage = .statusIn <;> simp [h]

/-- All an EP0 IN completion can do (R105). -/
theorem ep0InComplete_eq (s : State) : ep0InComplete s =
    if s.ctl.pendReq = 0x06 ∨ s.ctl.pendReq = 0x21 then { s with
      mem := s.mem.write .ep0tx 0 (cursorBytes (cursorLen s) s),
      ep0 := { s.ep0 with txLen := cursorLen s, tx := ⟨s.ep0.tx.mode, flipPid s.ep0.tx.tog⟩ },
      ctl := { s.ctl with
        cur := ⟨s.ctl.cur.src, s.ctl.cur.off + cursorLen s, s.ctl.cur.remaining - cursorLen s⟩,
        stage := stageAfterIn s.ctl.stage } }
    else if s.ctl.pendReq = 0x05 then { s with
      sess := { s.sess with addr := s.sess.pendAddr },
      ep0 := { s.ep0 with tx := ⟨.nak, s.ep0.tx.tog⟩, rx := ⟨.ack, s.ep0.rx.tog⟩ },
      ctl := { s.ctl with stage := stageAfterIn s.ctl.stage } }
    else { s with
      ep0 := { s.ep0 with txLen := 0, tx := ⟨.nak, s.ep0.tx.tog⟩, rx := ⟨.ack, s.ep0.rx.tog⟩ },
      ctl := { s.ctl with stage := stageAfterIn s.ctl.stage } } := by
  unfold ep0InComplete
  rw [statusDone_eq]
  have hc : continuesCursor s.ctl.pendReq = true ↔ s.ctl.pendReq = 0x06 ∨ s.ctl.pendReq = 0x21 := by simp [continuesCursor]
  by_cases h : s.ctl.pendReq = 0x06 ∨ s.ctl.pendReq = 0x21
  · rw [if_pos h, if_pos (hc.2 h)]
    rfl
  · rw [if_neg h, if_neg fun h' => h (hc.1 h')]
    by_cases h5 : s.ctl.pendReq = 0x05
    · rw [if_pos h5, if_pos h5]
      rfl
    · rw [if_neg h5, if_neg h5]
      rfl

/-- All an EP0 OUT completion can do (R106, R107). -/
theorem ep0OutComplete_cases (sync : Bool) (s : State) :
    (s.ctl.pendReq = 0x20 ∧
      (ep0OutComplete sync s = s ∨ ep0OutComplete sync s = s.raise .hostLineCodingLength ∨
        (sync = true ∧ s.ep0.rxLen = 7 ∧ ep0OutComplete sync s = commitLineCoding s))) ∨
    (s.ctl.pendReq ≠ 0x20 ∧ ep0OutComplete sync s = statusOut s) := by
  unfold ep0OutComplete
  split
  · rename_i hp
    refine .inl ⟨hp, ?_⟩
    unfold lineCodingData
    split
    · exact .inl rfl
    · rename_i hs
      split
      · exact .inr (.inl rfl)
      · rename_i hl
        exact .inr (.inr ⟨by simpa using hs, by simpa using hl, rfl⟩)
  · rename_i hp
    exact .inr ⟨hp, rfl⟩

/-- What the status stage of an IN transfer leaves (R107). -/
theorem statusOut_eq (s : State) : statusOut s = { s with
    ep0 := { s.ep0 with txLen := 0, tx := ⟨.nak, s.ep0.tx.tog⟩, rx := ⟨.ack, s.ep0.rx.tog⟩ },
    ctl := { s.ctl with stage := if s.ctl.stage = .dataIn ∨ s.ctl.stage = .statusIn then .idle else s.ctl.stage } } := by
  unfold statusOut closeEp0
  by_cases h : s.ctl.stage = .dataIn ∨ s.ctl.stage = .statusIn <;> simp [h]

/-- An addressed IN in RUN to a half that ACKs. -/
theorem inGate_addressed {a : DevAddr} {acks : Bool} {n : EpNum} {sp : Space} {f : State → State} {s : State}
    (ha : Addressed a s) (h : (s.half n .tx).mode = .ack) :
    tokenGate a (inTransaction n sp f a acks) s = .next
      (let s1 := s.respond (.data (s.half n .tx).tog (s.memReadN sp 0 (s.txLen n)))
       if acks then f (advance n .tx s1) else s1) := by
  rw [tokenGate_running ha.running]
  simp only [inTransaction, ha.2.2, h]
  simp

/-- An addressed OUT in RUN to a half that ACKs. -/
theorem outGate_addressed {a : DevAddr} {pid : Pid} {data : List Byte} {n : EpNum} {sp : Space} {f : Bool → State → State}
    {s : State} (ha : Addressed a s) (h : (s.half n .rx).mode = .ack) (hd : data.length ≤ 64) :
    tokenGate a (outTransaction n sp f a pid data) s = .next (acceptOut n sp f pid data s) := by
  rw [tokenGate_running ha.running]
  simp only [outTransaction, ha.2.2, h]
  simp [Nat.not_lt.2 hd]

/-- What an accepted OUT to EP0 leaves alone, and what of it does not depend on the handler (R75, R106, R107). -/
theorem acceptOut_ep0_frame (pid : Pid) (data : List Byte) (s : State) :
    ∃ u : State, acceptOut .ep0 .ep0rx ep0OutComplete pid data s = u ∧ u.par = s.par ∧ u.sess = s.sess ∧ u.ep1 = s.ep1 ∧
      u.ep2 = s.ep2 ∧ u.ep3 = s.ep3 ∧ u.tx = s.tx ∧ u.rx = s.rx ∧ u.pwr = s.pwr ∧ u.ctl.cur = s.ctl.cur ∧
      u.ctl.pendReq = s.ctl.pendReq ∧ u.ep0.tx.tog = s.ep0.tx.tog ∧ u.ep0.rx.tog = s.ep0.rx.tog ∧
      u.mem = s.mem.write .ep0rx 0 data ∧ (u.lc = s.lc ∨ s.ctl.pendReq = 0x20) ∧ u.ep0.rxLen = data.length ∧
      (u.ep0.txLen = s.ep0.txLen ∨ u.ep0.txLen = 0) ∧ (s.ctl.pendReq ≠ 0x20 → u.ep0.tx.mode = .nak) := by
  refine ⟨_, rfl, ?_⟩
  unfold acceptOut
  simp only [advance, autoTog, Bool.false_eq_true, if_false, ite_self]
  obtain ⟨hp, h | h | ⟨_, _, h⟩⟩ | ⟨hp, h⟩ := ep0OutComplete_cases (syncOk pid (State.half .ep0 .rx s))
    ((State.setRxLen EpNum.ep0 data.length (State.memWrite Space.ep0rx 0 data s)).respond .ack) <;> rw [h]
  · simp [State.setRxLen]; exact fun h => absurd hp h
  · simp [State.setRxLen]; exact fun h => absurd hp h
  · simp [State.setRxLen, commitLineCoding]; exact ⟨.inr hp, hp⟩
  · rw [statusOut_eq]; simp [State.setRxLen]

/-- All an accepted OUT to EP2 does (R75, R111). -/
theorem acceptOut_ep2_eq (pid : Pid) (data : List Byte) (s : State) : acceptOut .ep2 .ep2rx ep2OutComplete pid data s =
    if pid = s.ep2.rx.tog then { s with
      mem := s.mem.write .ep2rx 0 data, out := s.out ++ [.response .ack], rx := ⟨data.length, 0⟩,
      ep2 := { s.ep2 with rxLen := data.length, rx := ⟨.nak, flipPid s.ep2.rx.tog⟩ } }
    else { s with
      mem := s.mem.write .ep2rx 0 data, out := s.out ++ [.response .ack], ep2 := { s.ep2 with rxLen := data.length } } := by
  split <;> rename_i h
  · simp [acceptOut, State.setRxLen, ep2OutComplete, State.half, advance, autoTog, syncOk, h, State.setHalf]
  · simp [acceptOut, State.setRxLen, ep2OutComplete, State.half, syncOk, h]; rfl

end Sys2Proof.Machine
end

