-- ==== Sys2Proof/Laws/Step.lean ====
section
/-! SUPPORT. Everything a step can do, said once: an invariant or a rule about every operation is a case analysis over
`ExecNext`. -/

namespace Sys2Proof.Machine

/-- The answer to an IN that sends: the packet armed in EPnTX, with the half's PID (R74). -/
def sent (n : EpNum) (sp : Space) (s : State) : State := s.respond (.data (s.half n .tx).tog (s.memReadN sp 0 (s.txLen n)))

/-- The ways in which the operation `i` may take the state `s` to a next state. -/
inductive ExecNext (i : Instr) (s : State) : State → Prop where
  /-- A token answered by the address filter, by the mode of its half, by DRAIN_WAIT, or by a packet whose ACK is lost; or
  an empty query. -/
  | output (e : Event) : ExecNext i s (s.emit e)
  /-- No effect (R122, R123, R124). -/
  | same : ExecNext i s s
  | raised (k : Fault) (hp : s.pwr.state = .run) : ExecNext i s (s.raise k)
  | request (a : DevAddr) (r : SetupRequest) (f : Handler) (hp : s.pwr.state = .run) (hr : requestOf i = some (a, r))
      (hf : ∀ u, RequestResult i r u (f r u)) : ExecNext i s (acceptedRequest r f s)
  | packet (a : DevAddr) (r : SetupRequest) (hp : s.pwr.state = .run) (hi : i = .setup a (packetBytes r)) :
      ExecNext i s (acceptedRequest r dispatchRequest s)
  | malformed (a : DevAddr) (data : List Byte) (hp : s.pwr.state = .run) (hi : i = .setup a data) (hl : data.length ≤ 64)
      (h8 : data.length ≠ 8) : ExecNext i s (setupFail .malformedRequest (acceptSetup data s))
  | in0 (a : DevAddr) (hp : s.pwr.state = .run) (hi : i = .inEp0 a true) (hm : s.ep0.tx.mode = .ack) :
      ExecNext i s (ep0InComplete (sent .ep0 .ep0tx s))
  | in1 (a : DevAddr) (hp : s.pwr.state = .run) (hi : i = .inEp1 a true) (hm : s.ep1.tx.mode = .ack) :
      ExecNext i s (ep1InComplete (advance .ep1 .tx (sent .ep1 .ep1tx s)))
  | in2 (a : DevAddr) (hp : s.pwr.state = .run) (hi : i = .inEp2 a true) (hm : s.ep2.tx.mode = .ack) :
      ExecNext i s (ep2InComplete (advance .ep2 .tx (sent .ep2 .ep2tx s)))
  | out0 (a : DevAddr) (pid : Pid) (data : List Byte) (hp : s.pwr.state = .run) (hi : i = .outEp0 a pid data)
      (hl : data.length ≤ 64) (hm : s.ep0.rx.mode = .ack) : ExecNext i s (acceptOut .ep0 .ep0rx ep0OutComplete pid data s)
  | out2 (a : DevAddr) (pid : Pid) (data : List Byte) (hp : s.pwr.state = .run) (hi : i = .outEp2 a pid data)
      (hl : data.length ≤ 64) (hm : s.ep2.rx.mode = .ack) : ExecNext i s (acceptOut .ep2 .ep2rx ep2OutComplete pid data s)
  | reset (hp : s.pwr.state = .run) (hi : i = .busReset) : ExecNext i s (busResetNow s)
  | suspend (hp : s.pwr.state = .run) (hi : i = .busSuspend) : ExecNext i s (suspEnter .bus s)
  | tick (hp : s.pwr.state = .run) (hi : i = .tick) : ExecNext i s (txStep (rxStep s))
  | enqueue (b : Byte) (hp : s.pwr.state = .run) (hi : i = .enq b) (hc : s.tx.pend ≠ txcap s.par) :
      ExecNext i s (Machine.enqueue b s)
  | halted (hp : s.pwr.state = .drainWait) (hi : i = .poll false) : ExecNext i s (haltNow s)
  | wakeToken (hp : s.pwr.state = .halt) (hi : opClass i = .setup ∨ opClass i = .token) :
      ExecNext i s ((wake .usb s).respond .none)
  | wakeReset (hp : s.pwr.state = .halt) (hi : i = .busReset) : ExecNext i s (busResetNow (wake .usb s))
  | wakeEvent (src : WakeSrc) (hp : s.pwr.state = .halt) (hi : i = .resume ∨ i = .rxd0Low ∨ i = .rxd1Low) :
      ExecNext i s (wake src s)

/-- A request row's next state. -/
theorem request_next {i : Instr} {a : DevAddr} {r : SetupRequest} (hi : requestOf i = some (a, r)) (hs : ∀ b d, i ≠ .setup b d)
    (hc : opClass i = .setup) {s t : State} (h : exec i s = .next t) : ExecNext i s t := by
  obtain ⟨f, he, hf⟩ := exec_request hi hs
  rw [he] at h
  obtain ⟨-, ⟨hp, rfl⟩ | ⟨hp, rfl⟩⟩ := setupGate_next h
  · unfold requestTransaction
    split
    · exact .output _
    · exact .request a r f hp hi hf
  · exact .wakeToken hp (.inl hc)

/-- An undeclared-endpoint token's next state in RUN. -/
theorem undeclared_next {i : Instr} {a : DevAddr} {s : State} (hp : s.pwr.state = .run) : ExecNext i s (undeclaredToken a s) := by
  rcases undeclaredToken_cases a s with h | h <;> rw [h]
  · exact .output _
  · exact .raised _ hp

/-- An IN or OUT's next state, given what it does in RUN. -/
theorem token_next {i : Instr} {a : DevAddr} {run : State → State} (hc : opClass i = .token) {s t : State}
    (hrun : s.pwr.state = .run → ExecNext i s (run s)) (h : tokenGate a run s = .next t) : ExecNext i s t := by
  obtain ⟨-, ⟨hp, rfl⟩ | ⟨-, rfl⟩ | ⟨hp, rfl⟩⟩ := tokenGate_next h
  · exact hrun hp
  · exact .output _
  · exact .wakeToken hp (.inr hc)

/-- Every next state comes about in one of the ways of `ExecNext`, and from a state without a fault mark. -/
theorem exec_next {i : Instr} {s t : State} (h : exec i s = .next t) : ExecNext i s t := by
  cases i
  case setup a data =>
    obtain ⟨-, ⟨hp, rfl⟩ | ⟨hp, rfl⟩⟩ := setupGate_next h
    · obtain h | h | ⟨hl, h8, h⟩ | ⟨r, rfl, h⟩ := setupTransaction_cases a data s <;> rw [h]
      · exact .output _
      · exact .raised _ hp
      · exact .malformed a data hp rfl hl h8
      · exact .packet a r hp rfl
    · exact .wakeToken hp (.inl rfl)
  case setupUndeclaredEp ep a data =>
    obtain ⟨-, ⟨hp, rfl⟩ | ⟨hp, rfl⟩⟩ := setupGate_next h
    · exact undeclared_next hp
    · exact .wakeToken hp (.inl rfl)
  case inEp0 a acks =>
    refine token_next rfl (fun hp => ?_) h
    obtain ⟨_, h⟩ | ⟨-, hm, h⟩ := inTransaction_cases .ep0 .ep0tx ep0InComplete a acks s <;> rw [h]
    · exact .output _
    · cases acks
      · exact .output _
      · exact .in0 a hp rfl hm
  case inEp1 a acks =>
    refine token_next rfl (fun hp => ?_) h
    obtain ⟨_, h⟩ | ⟨-, hm, h⟩ := inTransaction_cases .ep1 .ep1tx ep1InComplete a acks s <;> rw [h]
    · exact .output _
    · cases acks
      · exact .output _
      · exact .in1 a hp rfl hm
  case inEp2 a acks =>
    refine token_next rfl (fun hp => ?_) h
    obtain ⟨_, h⟩ | ⟨-, hm, h⟩ := inTransaction_cases .ep2 .ep2tx ep2InComplete a acks s <;> rw [h]
    · exact .output _
    · cases acks
      · exact .output _
      · exact .in2 a hp rfl hm
  case inUndeclaredEp ep a acks => exact token_next rfl undeclared_next h
  case outEp0 a pid data =>
    refine token_next rfl (fun hp => ?_) h
    obtain ⟨_, h⟩ | h | ⟨-, hl, hm, h⟩ := outTransaction_cases .ep0 .ep0rx ep0OutComplete a pid data s <;> rw [h]
    · exact .output _
    · exact .raised _ hp
    · exact .out0 a pid data hp rfl hl hm
  case outEp2 a pid data =>
    refine token_next rfl (fun hp => ?_) h
    obtain ⟨_, h⟩ | h | ⟨-, hl, hm, h⟩ := outTransaction_cases .ep2 .ep2rx ep2OutComplete a pid data s <;> rw [h]
    · exact .output _
    · exact .raised _ hp
    · exact .out2 a pid data hp rfl hl hm
  case outUndeclaredEp ep a pid data => exact token_next rfl undeclared_next h
  case busReset =>
    simp only [exec, execBusReset, unlessFaulted] at h
    split at h
    · cases h
    · split at h <;> rename_i hp <;> cases h
      · exact .reset hp rfl
      · exact .wakeReset hp rfl
  case busSuspend =>
    simp only [exec, execBusSuspend, unlessFaulted] at h
    split at h
    · cases h
    · split at h <;> rename_i hp <;> cases h
      · exact .suspend hp rfl
      · exact .same
  case resume =>
    obtain ⟨-, ⟨rfl, -⟩ | ⟨hp, rfl⟩⟩ := wakeGate_next h
    · exact .same
    · exact .wakeEvent .usb hp (.inl rfl)
  case rxd0Low =>
    obtain ⟨-, ⟨rfl, -⟩ | ⟨hp, rfl⟩⟩ := wakeGate_next h
    · exact .same
    · exact .wakeEvent .rxd0 hp (.inr (.inl rfl))
  case rxd1Low =>
    obtain ⟨-, ⟨rfl, -⟩ | ⟨hp, rfl⟩⟩ := wakeGate_next h
    · exact .same
    · exact .wakeEvent .rxd1 hp (.inr (.inr rfl))
  case poll u =>
    simp only [exec, execPoll, unlessFaulted] at h
    split at h
    · cases h
    · split at h <;> rename_i hp <;> cases h
      · exact .same
      · cases u
        · exact .halted hp rfl
        · exact .same
      · exact .same
  case tick =>
    obtain ⟨hr, rfl⟩ := mainGate_next (run := fun s => txStep (rxStep s)) h
    exact .tick hr.2 rfl
  case enq b =>
    obtain ⟨hr, rfl⟩ :=
      mainGate_next (run := fun s => if s.tx.pend = txcap s.par then s.raise .txOverflow else enqueue b s) h
    split
    · exact .raised _ hr.2
    · rename_i hc
      exact .enqueue b hr.2 rfl hc
  case emptyQuery =>
    obtain ⟨hr, rfl⟩ := mainGate_next h
    exact .output _
  all_goals exact request_next rfl (fun _ _ => by simp) rfl h

end Sys2Proof.Machine
end

