-- ==== Sys2Proof/Tests/Slice0.lean ====
section
/-! SUPPORT. Tests: the WellFormed smoke, decoding of bytes written out from 30_encoding.md and 95_test_vectors.md, one step of each
operation against the vectors and programs of 95_test_vectors.md, and a witness for the hypotheses of each statement. -/

namespace Sys2Proof.Tests
open Sys2Proof Sys2Proof.Machine

/-! ### The test configuration and start states of 95 section 0 -/

/-- TC1. -/
def tc1 : Params where
  txcapPred := 63
  wToExtra := 1
  devDesc := [0x12, 0x01, 0x00, 0x02, 0x02, 0x00, 0x00, 0x40, 0x09, 0x12, 0x34, 0x56, 0x00, 0x01, 0x01, 0x02, 0x03, 0x01]
  cfgHead := #v[0x09, 0x02, 0x43, 0x00, 0x02, 0x01, 0x00, 0xA0]
  cfgTail :=
    [0x32, 0x09, 0x04, 0x00, 0x00, 0x01, 0x02, 0x02] ++
    [0x01, 0x00, 0x05, 0x24, 0x00, 0x10, 0x01, 0x05, 0x24, 0x01, 0x00, 0x01, 0x04, 0x24, 0x02, 0x02] ++
    [0x05, 0x24, 0x06, 0x00, 0x01, 0x07, 0x05, 0x81, 0x03, 0x40, 0x00, 0xFF, 0x09, 0x04, 0x01, 0x00] ++
    [0x02, 0x0A, 0x00, 0x00, 0x00, 0x07, 0x05, 0x02, 0x02, 0x40, 0x00, 0x00, 0x07, 0x05, 0x82, 0x02] ++
    [0x40, 0x00, 0x00]
  strDesc := [(0, [0x04, 0x03, 0x09, 0x04]), (1, [0x06, 0x03, 0x41, 0x00, 0x42, 0x00]),
    (2, [0x08, 0x03, 0x43, 0x00, 0x44, 0x00, 0x43, 0x00])]
  epAddrMap := ⟨1, 0, 32, 64, 96, 128, ⟨160, 160, 160, 160, 161, 162, 160⟩, ⟨163, 163, 163, 163, 164, 165, 163⟩,
    ⟨166, 166, 166, 166, 167, 168, 166⟩, ⟨169, 169, 169, 169⟩, 170⟩

/-- Buffers and registers have word-aligned addresses; ep[3] has no length register, and no rule gives the ring a place (R25, R46). -/
theorem test_epAddr : epAddr tc1 (.buffer .ep0rx) = some 64 ∧ epAddr tc1 (.register .ep2 .rxMode) = some 332 ∧
    epAddr tc1 .devAddr = some 340 ∧ epAddr tc1 (.register .ep3 .txLen) = none ∧ epAddr tc1 (.buffer .ring) = none := by decide

/-- TC1-W: TC1 without advertised wake. -/
def tc1W : Params := { tc1 with cfgHead := #v[0x09, 0x02, 0x43, 0x00, 0x02, 0x01, 0x00, 0x80] }

/-- S0, the power-on state. -/
def s0 : State := State.powerOn tc1

/-- S1, the state after enumeration (program P1). -/
def s1 : State := { s0 with
  sess := ⟨5, 5, 1, false⟩
  ep0 := ⟨⟨.nak, .data1⟩, ⟨.ack, .data1⟩, 0, 8⟩
  ctl := ⟨some ⟨0x00, 0x09, 0x01, 0x00, 0x00, 0x00, 0⟩, 0x09, .empty, .idle⟩ }

/-- S1 with TC1-W. -/
def s1W : State := { s1 with par := tc1W }

/-- S1 in a given power state. -/
def s1In (p : PwrState) (o : Origin) (w : WakeArm) : State := { s1 with pwr := ⟨p, o, w⟩ }

/-- The operation has a next state, and it passes the check. -/
def onNext (o : Result) (p : State → Bool) : Bool :=
  match o with
  | .next t => p t
  | .fault _ => false
  | .refused _ => false

/-- The operation has no step, for the reason given. -/
def refuses (o : Result) (k : Refusal) : Bool :=
  match o with
  | .next _ => false
  | .fault _ => false
  | .refused r => r == k

/-- The bytes are exactly one operation, the one given. -/
def decodesTo (bs : List Byte) (i : Instr) : Bool :=
  match decode bs with
  | .ok (j, rest) => j == i && rest.isEmpty
  | .error _ => false

/-- The bytes are refused, for the reason given. -/
def undecodable (bs : List Byte) (e : DecodeError) : Bool :=
  match decode bs with
  | .ok _ => false
  | .error e' => e' == e

/-- A Setup packet from its eight bytes, wLength given whole. -/
abbrev pkt (t q vl vh il ih : Byte) (len : BitVec 16) : SetupRequest := ⟨t, q, vl, vh, il, ih, len⟩

/-- EP0 STALLs on both halves with both toggles 1 and the pending request invalid (R83), for the reason given. -/
def stalled (k : FailKind) (t : State) : Bool :=
  t.ep0.tx == ⟨.stall, .data1⟩ && t.ep0.rx == ⟨.stall, .data1⟩ && t.ctl.pendReq == 0xFF && t.ctl.stage == .stalled &&
    t.lastFail == some k && t.sess == s1.sess && t.lc == s1.lc

/-! ### WellFormed: an ill-formed term for each check -/

theorem test_illFormed_getStatus : WellFormed (.getStatus 0 (pkt 0x80 0x06 0 0 0 0 0)) = false := by decide
theorem test_illFormed_getStatus_type : WellFormed (.getStatus 0 (pkt 0x20 0x00 0 0 0 0 0)) = false := by decide
theorem test_illFormed_clearFeatureDevice : WellFormed (.clearFeatureDevice 0 (pkt 0x00 0x01 0 0 0 0 0)) = false := by decide
theorem test_illFormed_clearFeatureEndpoint : WellFormed (.clearFeatureEndpoint 0 (pkt 0x01 0x01 0 0 0 0 0)) = false := by decide
theorem test_illFormed_clearFeatureBad : WellFormed (.clearFeatureBad 0 (pkt 0x02 0x01 0 0 0x82 0 0)) = false := by decide
theorem test_illFormed_setFeatureDevice : WellFormed (.setFeatureDevice 0 (pkt 0x00 0x03 1 1 0 0 0)) = false := by decide
theorem test_illFormed_setFeatureEndpoint : WellFormed (.setFeatureEndpoint 0 (pkt 0x02 0x03 1 0 0 0 0)) = false := by decide
theorem test_illFormed_setFeatureBad : WellFormed (.setFeatureBad 0 (pkt 0x00 0x03 1 0 0 0 0)) = false := by decide
theorem test_illFormed_setAddress : WellFormed (.setAddress 0 (pkt 0x00 0x05 0x80 0 0 0 0)) = false := by decide
theorem test_illFormed_setAddressBad : WellFormed (.setAddressBad 0 (pkt 0x00 0x05 0x7F 0 0 0 0)) = false := by decide
theorem test_illFormed_getDescriptorDevice : WellFormed (.getDescriptorDevice 0 (pkt 0x80 0x06 0 2 0 0 0)) = false := by decide
theorem test_illFormed_getDescriptorConfig : WellFormed (.getDescriptorConfig 0 (pkt 0x80 0x06 0 3 0 0 0)) = false := by decide
theorem test_illFormed_getDescriptorString : WellFormed (.getDescriptorString 0 (pkt 0x80 0x06 0 1 0 0 0)) = false := by decide
theorem test_illFormed_getDescriptorBad : WellFormed (.getDescriptorBad 0 (pkt 0x80 0x06 0 3 0 0 0)) = false := by decide
theorem test_illFormed_getConfiguration : WellFormed (.getConfiguration 0 (pkt 0x80 0x09 0 0 0 0 0)) = false := by decide
theorem test_illFormed_setConfiguration : WellFormed (.setConfiguration 0 (pkt 0x00 0x09 2 0 0 0 0)) = false := by decide
theorem test_illFormed_setConfigurationBad : WellFormed (.setConfigurationBad 0 (pkt 0x00 0x09 1 0 0 0 0)) = false := by decide
theorem test_illFormed_stdUnsupported : WellFormed (.stdUnsupported 0 (pkt 0x00 0x08 0 0 0 0 0)) = false := by decide
theorem test_illFormed_setLineCoding : WellFormed (.setLineCoding 0 (pkt 0x00 0x20 0 0 0 0 0)) = false := by decide
theorem test_illFormed_getLineCoding : WellFormed (.getLineCoding 0 (pkt 0x21 0x20 0 0 0 0 0)) = false := by decide
theorem test_illFormed_setControlLineState : WellFormed (.setControlLineState 0 (pkt 0x21 0x21 0 0 0 0 0)) = false := by decide
theorem test_illFormed_resetDeviceToBootloader : WellFormed (.resetDeviceToBootloader 0 (pkt 0x00 0x65 0 0 0 0 0)) = false := by decide
theorem test_illFormed_nonstdUnsupported : WellFormed (.nonstdUnsupported 0 (pkt 0x40 0x65 0 0 0 0 0)) = false := by decide
theorem test_illFormed_setup_eight : WellFormed (.setup 0 [0, 0, 0, 0, 0, 0, 0, 0]) = false := by decide
theorem test_illFormed_setup_long {d : List Byte} (h : d.length = 256) : WellFormed (.setup 0 d) = false := by simp [WellFormed, h]
theorem test_illFormed_setupUndeclaredEp : WellFormed (.setupUndeclaredEp 0 0 []) = false := by decide
theorem test_illFormed_inUndeclaredEp : WellFormed (.inUndeclaredEp 2 0 true) = false := by decide
theorem test_illFormed_outEp0_long {d : List Byte} (h : d.length = 256) : WellFormed (.outEp0 0 .data0 d) = false := by simp [WellFormed, h]
theorem test_illFormed_outEp2_long {d : List Byte} (h : d.length = 256) : WellFormed (.outEp2 0 .data0 d) = false := by simp [WellFormed, h]
theorem test_illFormed_outUndeclaredEp : WellFormed (.outUndeclaredEp 2 0 .data0 []) = false := by decide

/-! ### Decoding: Setup packets of 95 section 2.1 (E-1 to E-21) and of files 42 and 43, in the layout of 95 section 0 -/

theorem test_decode_getStatus : decodesTo [0x30, 5, 8, 0x80, 0x00, 0, 0, 0, 0, 0x02, 0] (.getStatus 5 (pkt 0x80 0x00 0 0 0 0 2)) = true := by decide
theorem test_decode_clearFeatureDevice : decodesTo [0x30, 5, 8, 0x00, 0x01, 1, 0, 0, 0, 0, 0] (.clearFeatureDevice 5 (pkt 0x00 0x01 1 0 0 0 0)) = true := by decide
theorem test_decode_clearFeatureEndpoint_E5 : decodesTo [0x30, 5, 8, 0x02, 0x01, 0, 0, 0x82, 0, 0, 0] (.clearFeatureEndpoint 5 (pkt 0x02 0x01 0 0 0x82 0 0)) = true := by decide
theorem test_decode_clearFeatureEndpoint_E6 : decodesTo [0x30, 5, 8, 0x82, 0x01, 0, 0, 0x82, 0, 0, 0] (.clearFeatureEndpoint 5 (pkt 0x82 0x01 0 0 0x82 0 0)) = true := by decide
theorem test_decode_clearFeatureBad_E7 : decodesTo [0x30, 5, 8, 0x01, 0x01, 0, 0, 0, 0, 0, 0] (.clearFeatureBad 5 (pkt 0x01 0x01 0 0 0 0 0)) = true := by decide
theorem test_decode_setFeatureDevice_E8 : decodesTo [0x30, 5, 8, 0x00, 0x03, 1, 0, 0, 0, 0, 0] (.setFeatureDevice 5 (pkt 0x00 0x03 1 0 0 0 0)) = true := by decide
theorem test_decode_setFeatureEndpoint : decodesTo [0x30, 5, 8, 0x02, 0x03, 0, 0, 0x82, 0, 0, 0] (.setFeatureEndpoint 5 (pkt 0x02 0x03 0 0 0x82 0 0)) = true := by decide
theorem test_decode_setFeatureBad_E9 : decodesTo [0x30, 5, 8, 0x00, 0x03, 0, 0, 0, 0, 0, 0] (.setFeatureBad 5 (pkt 0x00 0x03 0 0 0 0 0)) = true := by decide
theorem test_decode_setAddress_E2 : decodesTo [0x30, 0, 8, 0x00, 0x05, 5, 0, 0, 0, 0, 0] (.setAddress 0 (pkt 0x00 0x05 5 0 0 0 0)) = true := by decide
theorem test_decode_setAddressBad_E3 : decodesTo [0x30, 0, 8, 0x00, 0x05, 0x80, 0, 0, 0, 0, 0] (.setAddressBad 0 (pkt 0x00 0x05 0x80 0 0 0 0)) = true := by decide
theorem test_decode_setAddressBad_E4 : decodesTo [0x30, 0, 8, 0x00, 0x05, 5, 1, 0, 0, 0, 0] (.setAddressBad 0 (pkt 0x00 0x05 5 1 0 0 0)) = true := by decide
theorem test_decode_getDescriptorDevice_E1 : decodesTo [0x30, 0, 8, 0x80, 0x06, 0, 1, 0, 0, 0x40, 0] (.getDescriptorDevice 0 (pkt 0x80 0x06 0 1 0 0 0x0040)) = true := by decide
theorem test_decode_getDescriptorConfig_E18 : decodesTo [0x30, 0, 8, 0x80, 0x06, 0, 2, 0, 0, 0, 1] (.getDescriptorConfig 0 (pkt 0x80 0x06 0 2 0 0 256)) = true := by decide
theorem test_decode_getDescriptorString_E16 : decodesTo [0x30, 0, 8, 0x80, 0x06, 4, 3, 9, 4, 0xFF, 0] (.getDescriptorString 0 (pkt 0x80 0x06 4 3 9 4 255)) = true := by decide
theorem test_decode_getDescriptorBad_E17 : decodesTo [0x30, 0, 8, 0x80, 0x06, 0, 4, 0, 0, 0xFF, 0] (.getDescriptorBad 0 (pkt 0x80 0x06 0 4 0 0 255)) = true := by decide
theorem test_decode_getConfiguration : decodesTo [0x30, 5, 8, 0x80, 0x08, 0, 0, 0, 0, 1, 0] (.getConfiguration 5 (pkt 0x80 0x08 0 0 0 0 1)) = true := by decide
theorem test_decode_setConfiguration_E20 : decodesTo [0x30, 5, 8, 0x00, 0x09, 1, 0, 0, 0, 0, 0] (.setConfiguration 5 (pkt 0x00 0x09 1 0 0 0 0)) = true := by decide
theorem test_decode_setConfigurationBad_E19 : decodesTo [0x30, 5, 8, 0x00, 0x09, 2, 0, 0, 0, 0, 0] (.setConfigurationBad 5 (pkt 0x00 0x09 2 0 0 0 0)) = true := by decide
theorem test_decode_stdUnsupported_E12 : decodesTo [0x30, 5, 8, 0x00, 0x20, 0, 0, 0, 0, 7, 0] (.stdUnsupported 5 (pkt 0x00 0x20 0 0 0 0 7)) = true := by decide
theorem test_decode_stdUnsupported_E14 : decodesTo [0x30, 5, 8, 0x00, 0x99, 0, 0, 0, 0, 0, 0] (.stdUnsupported 5 (pkt 0x00 0x99 0 0 0 0 0)) = true := by decide
theorem test_decode_setLineCoding_E10 : decodesTo [0x30, 5, 8, 0x21, 0x20, 0, 0, 0, 0, 7, 0] (.setLineCoding 5 (pkt 0x21 0x20 0 0 0 0 7)) = true := by decide
theorem test_decode_setLineCoding_E11 : decodesTo [0x30, 5, 8, 0x60, 0x20, 0, 0, 0, 0, 7, 0] (.setLineCoding 5 (pkt 0x60 0x20 0 0 0 0 7)) = true := by decide
theorem test_decode_getLineCoding : decodesTo [0x30, 5, 8, 0xA1, 0x21, 0, 0, 0, 0, 7, 0] (.getLineCoding 5 (pkt 0xA1 0x21 0 0 0 0 7)) = true := by decide
theorem test_decode_setControlLineState : decodesTo [0x30, 5, 8, 0x21, 0x22, 3, 0, 0, 0, 0, 0] (.setControlLineState 5 (pkt 0x21 0x22 3 0 0 0 0)) = true := by decide
theorem test_decode_bootloader_E13 : decodesTo [0x30, 5, 8, 0x40, 0x65, 0, 0, 0, 0, 0, 0] (.resetDeviceToBootloader 5 (pkt 0x40 0x65 0 0 0 0 0)) = true := by decide
theorem test_decode_nonstdUnsupported_E15 : decodesTo [0x30, 5, 8, 0x21, 0x23, 0, 0, 0, 0, 0, 0] (.nonstdUnsupported 5 (pkt 0x21 0x23 0 0 0 0 0)) = true := by decide
theorem test_decode_setup_E21 : decodesTo [0x30, 5, 7, 0x00, 0x09, 1, 0, 0, 0, 0] (.setup 5 [0x00, 0x09, 1, 0, 0, 0, 0]) = true := by decide

/-! ### Decoding: operation codes of R68, operands as 95 section 0 lays them out -/

theorem test_decode_setupUndeclaredEp : decodesTo [0x3F, 5, 1, 0xAA] (.setupUndeclaredEp 15 5 [0xAA]) = true := by decide
theorem test_decode_inEp0 : decodesTo [0x20, 0x05, 0x01] (.inEp0 5 true) = true := by decide
theorem test_decode_inEp1 : decodesTo [0x21, 0x7F, 0x00] (.inEp1 127 false) = true := by decide
theorem test_decode_inEp2 : decodesTo [0x22, 0x05, 0x01] (.inEp2 5 true) = true := by decide
theorem test_decode_inUndeclaredEp : decodesTo [0x23, 0x05, 0x01] (.inUndeclaredEp 3 5 true) = true := by decide
theorem test_decode_outEp0 : decodesTo [0x00, 0x05, 0x01, 0x00] (.outEp0 5 .data1 []) = true := by decide
theorem test_decode_outEp2 : decodesTo [0x02, 0x05, 0x00, 0x03, 0x41, 0x42, 0x43] (.outEp2 5 .data0 [0x41, 0x42, 0x43]) = true := by decide
theorem test_decode_outUndeclaredEp : decodesTo [0x01, 0x05, 0x00, 0x01, 0x41] (.outUndeclaredEp 1 5 .data0 [0x41]) = true := by decide
theorem test_decode_busReset : decodesTo [0x40] .busReset = true := by decide
theorem test_decode_busSuspend : decodesTo [0x41] .busSuspend = true := by decide
theorem test_decode_resume : decodesTo [0x42] .resume = true := by decide
theorem test_decode_rxd0Low : decodesTo [0x43] .rxd0Low = true := by decide
theorem test_decode_rxd1Low : decodesTo [0x44] .rxd1Low = true := by decide
theorem test_decode_poll : decodesTo [0x48, 0x01] (.poll true) = true := by decide
theorem test_decode_tick : decodesTo [0x80] .tick = true := by decide
theorem test_decode_enq : decodesTo [0x81, 0x25] (.enq 0x25) = true := by decide
theorem test_decode_emptyQuery : decodesTo [0x82] .emptyQuery = true := by decide
theorem test_decode_refuses_unassigned : undecodable [0x10] (.unassignedCode 0x10) = true := by decide
theorem test_decode_refuses_truncated : undecodable [0x02, 5, 0, 3, 0x41] .truncated = true := by decide
theorem test_decode_refuses_address : undecodable [0x20, 0x80, 1] .badOperand = true := by decide
theorem test_decode_refuses_nothing : undecodable [] .noOperation = true := by decide

/-! ### The step -/

/-- A table word placed on the interface is the operation the next step runs. -/
theorem test_withFetchWord : onNext (step (s0.withFetchWord 8 0x41)) (fun t => t.pwr.state == .drainWait) = true := by decide
theorem test_withFetchWord_request :
    onNext (step (s0.withFetchWord 32 0x00050500)) (fun t => t.sess.pendAddr == 5 && t.input.isEmpty) = true := by decide
theorem test_step_refuses_reset : refuses (step s0) (.undecodable .noOperation) = true := by decide

/-! ### Requests, from S1 unless named otherwise (95 sections 2.3 to 2.5 and 4) -/

theorem test_getStatus_R1 : onNext (exec (.getStatus 5 (pkt 0x80 0x00 0 0 0 0 2)) s1)
    (fun t => t.ep0 == ep0Ok 2 && t.memReadN .ep0tx 0 2 == [0, 0] && t.ctl.stage == .dataIn && t.out == [.response .ack]) = true := by decide
theorem test_getStatus_R2 : onNext (exec (.getStatus 5 (pkt 0x80 0x00 0 0 0 0 1)) s1) (fun t => t.ep0.txLen == 1) = true := by decide
theorem test_clearFeatureDevice_R4 : onNext (exec (.clearFeatureDevice 5 (pkt 0x00 0x01 1 0 0 0 0)) s1)
    (fun t => t.ep0 == ep0Ok 0 && t.ctl.stage == .statusIn) = true := by decide
theorem test_clearFeatureDevice_R5 : onNext (exec (.clearFeatureDevice 5 (pkt 0x00 0x01 1 0 0 0 0)) s1W) (stalled .unsupportedRequest) = true := by decide
theorem test_clearFeatureEndpoint_R9 : onNext (exec (.clearFeatureEndpoint 5 (pkt 0x02 0x01 0 0 0x81 0 0))
    { s1 with ep1 := { s1.ep1 with tx := ⟨.stall, .data1⟩ } }) (fun t => t.ep1.tx == ⟨.nak, .data0⟩ && t.ep1.rx == s1.ep1.rx) = true := by decide
theorem test_clearFeatureEndpoint_R10 : onNext (exec (.clearFeatureEndpoint 5 (pkt 0x02 0x01 0 0 0x02 0 0))
    { s1 with ep2 := { s1.ep2 with rx := ⟨.stall, .data1⟩ } }) (fun t => t.ep2.rx == ⟨.ack, .data0⟩) = true := by decide
theorem test_clearFeatureBad_R6 : onNext (exec (.clearFeatureBad 5 (pkt 0x00 0x01 0 0 0 0 0)) s1) (stalled .unsupportedRequest) = true := by decide
theorem test_setFeatureDevice_P7 : onNext (exec (.setFeatureDevice 5 (pkt 0x00 0x03 1 0 0 0 0)) s1)
    (fun t => t.pwr.state == .drainWait && t.pwr.origin == .feature && t.sess.suspended && t.ctl.pendReq == 0x03 &&
      t.ep0 == s1.ep0 && t.ctl.stage == .idle && t.out == [.response .ack, .powerDown]) = true := by decide
theorem test_setFeatureDevice_unadvertised : onNext (exec (.setFeatureDevice 5 (pkt 0x00 0x03 1 0 0 0 0)) s1W) (stalled .unsupportedRequest) = true := by decide
theorem test_setFeatureEndpoint_R8 : onNext (exec (.setFeatureEndpoint 5 (pkt 0x02 0x03 0 0 0x81 0 0)) s1)
    (fun t => t.ep1.tx == ⟨.stall, .data0⟩ && t.ep2 == s1.ep2 && t.ep3 == s1.ep3) = true := by decide
theorem test_setFeatureEndpoint_R11 : onNext (exec (.setFeatureEndpoint 5 (pkt 0x02 0x03 0 0 0x84 0 0)) s1) (stalled .unsupportedEndpoint) = true := by decide
theorem test_setFeatureBad_R13 : onNext (exec (.setFeatureBad 5 (pkt 0x02 0x03 1 0 0 0 0)) s1) (stalled .unsupportedRequest) = true := by decide
theorem test_setAddress_P1 : onNext (exec (.setAddress 0 (pkt 0x00 0x05 5 0 0 0 0)) s0)
    (fun t => t.sess.pendAddr == 5 && t.sess.addr == 0 && t.ep0 == ep0Ok 0) = true := by decide
theorem test_setAddressBad_R16 : onNext (exec (.setAddressBad 5 (pkt 0x00 0x05 0x80 0 0 0 0)) s1) (stalled .unsupportedRequest) = true := by decide
theorem test_getDescriptorDevice_R19 : onNext (exec (.getDescriptorDevice 5 (pkt 0x80 0x06 0 1 0 0 8)) s1)
    (fun t => t.ep0.txLen == 8 && t.memReadN .ep0tx 0 8 == [0x12, 0x01, 0x00, 0x02, 0x02, 0x00, 0x00, 0x40]) = true := by decide
theorem test_getDescriptorConfig_P6 : onNext (exec (.getDescriptorConfig 5 (pkt 0x80 0x06 0 2 0 0 255)) s1)
    (fun t => t.ep0.txLen == 64 && t.ctl.cur == ⟨.cfg, 64, 3⟩ && t.memReadN .ep0tx 62 2 == [0x82, 0x02]) = true := by decide
theorem test_getDescriptorString_R21 : onNext (exec (.getDescriptorString 5 (pkt 0x80 0x06 0 3 0 0 255)) s1)
    (fun t => t.ep0.txLen == 4 && t.memReadN .ep0tx 0 4 == [0x04, 0x03, 0x09, 0x04]) = true := by decide
theorem test_getDescriptorString_E16 : onNext (exec (.getDescriptorString 5 (pkt 0x80 0x06 4 3 9 4 255)) s1) (stalled .unsupportedRequest) = true := by decide
theorem test_getDescriptorBad_E17 : onNext (exec (.getDescriptorBad 5 (pkt 0x80 0x06 0 4 0 0 255)) s1) (stalled .unsupportedRequest) = true := by decide
theorem test_getConfiguration_P5 : onNext (exec (.getConfiguration 5 (pkt 0x80 0x08 0 0 0 0 1)) s1)
    (fun t => t.ep0 == ep0Ok 1 && t.memRead .ep0tx 0 == 1 && t.ctl.stage == .dataIn) = true := by decide
theorem test_getConfiguration_R26 : onNext (exec (.getConfiguration 0 (pkt 0x80 0x08 0 0 0 0 1)) s0) (fun t => t.memRead .ep0tx 0 == 0) = true := by decide
theorem test_setConfiguration_S5 : onNext (exec (.setConfiguration 5 (pkt 0x00 0x09 0 0 0 0 0)) s1)
    (fun t => t.sess.cfg == 0 && t.sess.addr == 5 && t.ep0 == ep0Ok 0) = true := by decide
theorem test_setConfigurationBad_E19 : onNext (exec (.setConfigurationBad 5 (pkt 0x00 0x09 2 0 0 0 0)) s1) (stalled .unsupportedRequest) = true := by decide
theorem test_stdUnsupported_P5 : onNext (exec (.stdUnsupported 5 (pkt 0x00 0x99 0 0 0 0 0)) s1) (stalled .unsupportedRequest) = true := by decide
theorem test_setLineCoding_P2 : onNext (exec (.setLineCoding 5 (pkt 0x21 0x20 0 0 0 0 7)) s1)
    (fun t => t.ctl.pendReq == 0x20 && t.ctl.stage == .dataOut && t.ep0 == ep0Ok 0 && t.lc == s1.lc) = true := by decide
theorem test_getLineCoding_C8 : onNext (exec (.getLineCoding 5 (pkt 0xA1 0x21 0 0 0 0 7)) s1)
    (fun t => t.memReadN .ep0tx 0 7 == [0x00, 0xE1, 0x00, 0x00, 0x00, 0x00, 0x08] && t.ctl.cur == ⟨.lc, 7, 0⟩) = true := by decide
theorem test_setControlLineState : onNext (exec (.setControlLineState 5 (pkt 0x21 0x22 3 0 0 0 0)) s1)
    (fun t => t.ep0 == ep0Ok 0 && t.ctl.stage == .statusIn) = true := by decide
theorem test_bootloader_P8 : onNext (exec (.resetDeviceToBootloader 5 (pkt 0x40 0x65 0 0 0 0 0)) s1)
    (fun t => t.pwr.state == .exited && t.ctl.pendReq == 0x65 && t.out == [.response .ack, .bootloaderJump] && refuses (exec .tick t) .exited) = true := by decide
theorem test_nonstdUnsupported : onNext (exec (.nonstdUnsupported 5 (pkt 0x21 0x23 0 0 0 0 0)) s1) (stalled .unsupportedRequest) = true := by decide

/-! ### Tokens (95 sections 2.2, 2.3, 4) -/

theorem test_setup_S1 : onNext (exec (.setup 5 [0x00, 0x09, 0, 0, 0, 0, 0]) s1)
    (fun t => stalled .malformedRequest t && t.ep0.rxLen == 7 && t.ctl.setup == s1.ctl.setup) = true := by decide
theorem test_setup_S3 : onNext (exec (.setup 5 (List.replicate 65 0)) s1) (fun t => t.fault == some .hostContract) = true := by decide
theorem test_setupUndeclaredEp : onNext (exec (.setupUndeclaredEp 1 5 []) s1) (fun t => t.fault == some .hostContract) = true := by decide
/-- P1: the status stage of SET_ADDRESS 5. -/
theorem test_inEp0_setAddress : onNext (exec (.inEp0 0 true)
    { s0 with sess := ⟨0, 5, 0, false⟩, ep0 := ep0Ok 0, ctl := ⟨none, 0x05, .empty, .statusIn⟩ })
    (fun t => t.sess.addr == 5 && t.ep0.tx == ⟨.nak, .data1⟩ && t.ep0.rx == ⟨.ack, .data1⟩ && t.ctl.stage == .idle &&
      t.out == [.response (.data .data1 [])]) = true := by decide
/-- P6 line 2: the rest of the configuration descriptor is loaded, and the toggle flips. -/
theorem test_inEp0_cursor : onNext (exec (.inEp0 5 true)
    { s1 with ep0 := ep0Ok 0, ctl := ⟨none, 0x06, ⟨.cfg, 64, 3⟩, .dataIn⟩ })
    (fun t => t.ep0.txLen == 3 && t.ep0.tx == ⟨.ack, .data0⟩ && t.ctl.cur == ⟨.cfg, 67, 0⟩ &&
      t.memReadN .ep0tx 0 3 == [0x40, 0x00, 0x00] && t.ctl.stage == .dataIn) = true := by decide
theorem test_inEp1_N6 : onNext (exec (.inEp1 5 true) s1) (fun t => t == { s1 with out := [.response .nak] }) = true := by decide
/-- N-8: the state after the 101st tick. -/
def armed : State := { s1 with
  ep2 := { s1.ep2 with tx := ⟨.ack, .data0⟩, txLen := 3 }, tx := { s1.tx with busy := true },
  mem := { s1.mem with ep2tx := [(0, 0x61), (1, 0x62), (2, 0x63)] } }
theorem test_inEp2_N8 : onNext (exec (.inEp2 5 true) armed)
    (fun t => t.ep2.tx == ⟨.nak, .data1⟩ && t.ep2.txLen == 0 && !t.tx.busy && t.out == [.response (.data .data0 [0x61, 0x62, 0x63])]) = true := by decide
theorem test_inEp2_N8_lost : onNext (exec (.inEp2 5 false) armed)
    (fun t => t == { armed with out := [.response (.data .data0 [0x61, 0x62, 0x63])] }) = true := by decide
theorem test_inUndeclaredEp_N3 : onNext (exec (.inUndeclaredEp 3 5 true) s1) (fun t => t.fault == some .hostContract) = true := by decide
theorem test_inUndeclaredEp_N2 : onNext (exec (.inUndeclaredEp 3 6 true) s1) (fun t => t == { s1 with out := [.response .none] }) = true := by decide
/-- S1 in the data stage of SET_LINE_CODING (P2 line 1). -/
def lineData : State := { s1 with ep0 := ep0Ok 0, ctl := ⟨none, 0x20, .empty, .dataOut⟩ }
theorem test_outEp0_P2 : onNext (exec (.outEp0 5 .data1 [0x40, 0x42, 0x0F, 0x00, 0x02, 0x01, 0x07]) lineData)
    (fun t => t.lc.bytes == [0x00, 0xE1, 0x00, 0x00, 0x02, 0x01, 0x07] && t.ctl.stage == .statusIn && t.ep0.rxLen == 7) = true := by decide
/-- R106: "A baud of exactly 999999 is stored unchanged". -/
theorem test_outEp0_baudLimit : onNext (exec (.outEp0 5 .data1 [0x3F, 0x42, 0x0F, 0x00, 0x00, 0x00, 0x08]) lineData)
    (fun t => t.lc.bytes == [0x3F, 0x42, 0x0F, 0x00, 0x00, 0x00, 0x08]) = true := by decide
theorem test_outEp2_P3 : onNext (exec (.outEp2 5 .data0 [0x41, 0x42, 0x43]) s1)
    (fun t => t.rx == ⟨3, 0⟩ && t.ep2.rx == ⟨.nak, .data1⟩ && t.ep2.rxLen == 3 && t.memReadN .ep2rx 0 3 == [0x41, 0x42, 0x43]) = true := by decide
theorem test_outEp2_N7 : onNext (exec (.outEp2 5 .data1 [0x41]) s1)
    (fun t => t.rx == ⟨0, 0⟩ && t.ep2.rx == ⟨.ack, .data0⟩ && t.ep2.rxLen == 1 && t.memRead .ep2rx 0 == 0x41) = true := by decide
theorem test_outUndeclaredEp_N4 : onNext (exec (.outUndeclaredEp 1 5 .data0 [0x41]) s1) (fun t => t.fault == some .hostContract) = true := by decide

/-! ### Bus events, power, main loop -/

theorem test_busReset_Z : onNext (exec .busReset { armed with rx := ⟨2, 1⟩ })
    (fun t => t.sess == ⟨0, 0, 0, false⟩ && t.ep2 == s0.ep2 && !t.tx.busy && t.rx == ⟨0, 0⟩ && t.ctl == s0.ctl && t.mem == armed.mem) = true := by decide
theorem test_busReset_drainWait : refuses (exec .busReset (s1In .drainWait .bus .none)) .notEnabled = true := by decide
theorem test_busSuspend : onNext (exec .busSuspend s1)
    (fun t => t.pwr.state == .drainWait && t.pwr.origin == .bus && t.sess.suspended && t.out == [.powerDown]) = true := by decide
theorem test_resume : onNext (exec .resume (s1In .halt .bus .all)) (fun t => t.pwr.state == .run && t.pwr.wakeArm == .none && t.ep0 == s1.ep0) = true := by decide
theorem test_rxd0Low_ignored : onNext (exec .rxd0Low (s1In .drainWait .bus .none)) (fun t => t.pwr.state == .drainWait) = true := by decide
theorem test_rxd1Low_P7 : onNext (exec .rxd1Low (s1In .halt .feature .all))
    (fun t => t.pwr.state == .run && t.ep0 == ep0Ok 0 && t.ctl.stage == .statusIn) = true := by decide
theorem test_poll_busy : onNext (exec (.poll true) (s1In .drainWait .bus .none)) (fun t => t.pwr.state == .drainWait) = true := by decide
theorem test_poll_idle : onNext (exec (.poll false) (s1In .drainWait .bus .none)) (fun t => t.pwr.state == .halt && t.pwr.wakeArm == .all) = true := by decide
/-- P3 line 5: the last byte of three. -/
theorem test_tick_rx : onNext (exec .tick { s1 with
    rx := ⟨1, 2⟩, ep2 := { s1.ep2 with rx := ⟨.nak, .data1⟩ }, mem := { s1.mem with ep2rx := [(0, 0x41), (1, 0x42), (2, 0x43)] } })
    (fun t => t.out == [.byteReceived 0x43] && t.rx == ⟨0, 3⟩ && t.ep2.rx == ⟨.ack, .data1⟩) = true := by decide
/-- Tick 101 of a batch of two bytes at the ring's physical end: one byte goes out (R115). -/
theorem test_tick_tx : onNext (exec .tick { s1 with
    tx := ⟨1, 63, 2, false, 100⟩, mem := { s1.mem with ring := [(0, 0xB0), (63, 0xAF)] } })
    (fun t => t.tx == ⟨1, 0, 1, true, 0⟩ && t.ep2.tx == ⟨.ack, .data0⟩ && t.ep2.txLen == 1 && t.memReadN .ep2tx 0 1 == [0xAF]) = true := by decide
/-- R114's example. -/
theorem test_enq : onNext (exec (.enq 0x5A) { s1 with tx := ⟨63, 10, 53, false, 0⟩ })
    (fun t => t.tx == ⟨0, 10, 54, false, 0⟩ && t.memRead .ring 63 == 0x5A) = true := by decide
theorem test_enq_overflow : onNext (exec (.enq 0x5A) { s1 with tx := ⟨10, 10, 64, false, 0⟩ }) (fun t => t.fault == some .txOverflow) = true := by decide
theorem test_emptyQuery_P4 : onNext (exec .emptyQuery armed) (fun t => t.out == [.emptyResult true]) = true := by decide

/-! ### Witnesses: for each statement with hypotheses, a state and operands that meet them together, at the ends of ranges -/

/-- Every IN half and every OUT half of EP0, EP1 and EP2 in one mode. -/
def allModes (m : Mode) : State := { s1 with
  ep0 := ⟨⟨m, .data1⟩, ⟨m, .data1⟩, 0, 8⟩, ep1 := ⟨⟨m, .data0⟩, ⟨m, .data0⟩, 0, 0⟩, ep2 := ⟨⟨m, .data0⟩, ⟨m, .data0⟩, 0, 0⟩ }

/-- S1 with another request pending. -/
def pending (q : Byte) : State := { allModes .ack with ctl := { s1.ctl with pendReq := q } }

/-- The addressed token of the statements about tokens and requests. -/
theorem witness_addressed : Addressed 5 s1 ∧ Addressed 5 s1W := by decide

theorem witness_EncodedInstructionDecodesToItself :
    WellFormed (.outEp2 127 .data1 [0xFF]) = true ∧ WellFormed (.setAddress 0 (pkt 0x00 0x05 0x7F 0 0 0 0)) = true := by decide
/-- The longest data packet an encoding can carry. -/
theorem witness_EncodedInstruction_longest {d : List Byte} (h : d.length = 255) : WellFormed (.outEp2 127 .data1 d) = true := by simp [WellFormed, h]
theorem witness_DecodedBytesAreTheEncoding : decode [0x48, 0x00, 0x80] = .ok (.poll false, [0x80]) := by rfl
theorem witness_StepRunsTheDecodedOperation :
    WellFormed (.enq 7) = true ∧ ({ s1 with input := [0x81, 0x07, 0x80] } : State).input = encode (.enq 7) ++ [0x80] := by decide
theorem witness_UnassignedCodesHaveNoStep : ∀ op ∈ ([0x10, 0x1F, 0x45, 0x47, 0x49, 0x7F, 0x83, 0xFF] : List Byte),
    ({ s1 with input := [op] } : State).input = op :: [] ∧
    ((0x10 ≤ op.toNat ∧ op.toNat ≤ 0x1F) ∨ (0x45 ≤ op.toNat ∧ op.toNat ≤ 0x47) ∨
      (0x49 ≤ op.toNat ∧ op.toNat ≤ 0x7F) ∨ 0x83 ≤ op.toNat) := by decide

theorem witness_ForeignTokenChangesNothing : tokenAddr (.inEp0 0 true) = some 0 ∧ Running s1 ∧ (0 : DevAddr) ≠ s1.sess.addr := by decide
theorem witness_HostContractBreachRaisesTheFault : Addressed 5 s1 ∧ ((3 : BitVec 4) ≠ 0 ∧ (3 : BitVec 4) ≠ 1 ∧ (3 : BitVec 4) ≠ 2) ∧
    ((1 : BitVec 4) ≠ 0 ∧ (1 : BitVec 4) ≠ 2) ∧ ((15 : BitVec 4) ≠ 0) ∧ (List.replicate 65 (0 : Byte)).length > 64 := by decide
theorem witness_NakAndStallAnswersChangeNothing : ∀ m ∈ [Mode.nak, Mode.stall],
    Addressed 5 (allModes m) ∧ (List.replicate 64 (0 : Byte)).length ≤ 64 ∧ (allModes m).ep0.tx.mode = m ∧ (allModes m).ep1.tx.mode = m ∧
      (allModes m).ep2.tx.mode = m ∧ (allModes m).ep0.rx.mode = m ∧ (allModes m).ep2.rx.mode = m := by decide
theorem witness_LostAckLeavesThePacketArmed : Addressed 5 (allModes .ack) ∧ (allModes .ack).ep0.tx.mode = .ack ∧
    (allModes .ack).ep1.tx.mode = .ack ∧ (allModes .ack).ep2.tx.mode = .ack := by decide

theorem witness_SetupOfWrongLengthFailsAsMalformed : Addressed 5 s1 ∧
    (∀ n ∈ [0, 7, 9, 64], (List.replicate n (0 : Byte)).length ≤ 64 ∧ (List.replicate n (0 : Byte)).length ≠ 8) ∧
    (List.replicate 8 (0 : Byte)).length = 8 := by decide
theorem witness_RejectedRequestsFailAsUnsupported : Addressed 5 s1 ∧ WellFormed (.setAddressBad 5 (pkt 0x00 0x05 0x80 0 0 0 0)) = true := by decide
theorem witness_GetStatusArmsTwoZeroBytes : WellFormed (.getStatus 5 (pkt 0x80 0x00 0 0 0 0 2)) = true ∧ Addressed 5 s1 := by decide
theorem witness_ClearDeviceFeatureNeedsAdvertisedWake : WellFormed (.clearFeatureDevice 5 (pkt 0x00 0x01 1 0 0 0 0)) = true ∧
    Addressed 5 s1 ∧ wakeAdvertised s1.par = true ∧ Addressed 5 s1W ∧ wakeAdvertised s1W.par = false ∧
    WellFormed (.clearFeatureBad 5 (pkt 0x00 0x01 0 0 0 0 0)) = true ∧ recipient (pkt 0x00 0x01 0 0 0 0 0) = 0 := by decide
/-- Each clause of the endpoint feature statements has its index, and an index outside the six lies next to each. -/
theorem witness_EndpointHalt : Addressed 5 s1 ∧
    (∀ x ∈ ([0x81, 0x82, 0x83, 0x01, 0x02, 0x03, 0x00, 0x04, 0x80, 0x84, 0x12] : List Byte),
      WellFormed (.clearFeatureEndpoint 5 (pkt 0x02 0x01 0 0 x 0 0)) = true ∧ WellFormed (.setFeatureEndpoint 5 (pkt 0x02 0x03 0 0 x 0 0)) = true) ∧
    (∀ x ∈ ([0x00, 0x04, 0x80, 0x84, 0x12] : List Byte), x ∉ ([0x81, 0x82, 0x83, 0x01, 0x02, 0x03] : List Byte)) ∧
    WellFormed (.clearFeatureBad 5 (pkt 0x02 0x01 1 0 0 0 0)) = true ∧ WellFormed (.setFeatureBad 5 (pkt 0x02 0x03 1 0 0 0 0)) = true ∧
    recipient (pkt 0x02 0x03 1 0 0 0 0) = 2 := by decide
theorem witness_RepeatedEndpointFeatureTouchesOneHalf : WellFormed (.setFeatureEndpoint 5 (pkt 0x02 0x03 0 0 0x82 0 0)) = true ∧
    WellFormed (.clearFeatureEndpoint 5 (pkt 0x02 0x01 0 0 0x82 0 0)) = true ∧ Addressed 5 s1 ∧ halfOfIndex 0x82 = some (.ep2, .tx) := by decide
theorem witness_SetAddressStagesTheAddress : Addressed 5 s1 ∧ WellFormed (.setAddress 5 (pkt 0x00 0x05 0x7F 0 0 0 0)) = true ∧
    WellFormed (.setAddress 5 (pkt 0x00 0x05 0 0 0 0 0)) = true ∧ WellFormed (.setAddressBad 5 (pkt 0x00 0x05 0x80 0 0 0 0)) = true ∧
    WellFormed (.setAddressBad 5 (pkt 0x00 0x05 0 1 0 0 0)) = true := by decide
theorem witness_AddressLatchesAtTheStatusStage :
    WellFormed (.setAddress 5 (pkt 0x00 0x05 7 0 0 0 0)) = true ∧ Addressed 5 s1 ∧ (7 : Byte) = (7 : DevAddr).setWidth 8 := by decide
theorem witness_GetDescriptorOpensTheSelectedTable : Addressed 5 s1 ∧ WellFormed (.getDescriptorDevice 5 (pkt 0x80 0x06 0 1 0 0 8)) = true ∧
    WellFormed (.getDescriptorConfig 5 (pkt 0x80 0x06 0 2 0 0 255)) = true ∧ WellFormed (.getDescriptorString 5 (pkt 0x80 0x06 0 3 0 0 255)) = true ∧
    strDesc s1.par 0 = some [0x04, 0x03, 0x09, 0x04] ∧ strDesc s1.par 4 = none ∧ WellFormed (.getDescriptorBad 5 (pkt 0x80 0x06 0 4 0 0 255)) = true ∧
    WellFormed (.getDescriptorBad 5 (pkt 0x80 0x06 0 0 0 0 255)) = true := by decide
theorem witness_GetConfigurationArmsTheValue : WellFormed (.getConfiguration 5 (pkt 0x80 0x08 0 0 0 0 1)) = true ∧ Addressed 5 s1 := by decide
theorem witness_SetConfigurationStoresTheValue : Addressed 5 s1 ∧ WellFormed (.setConfiguration 5 (pkt 0x00 0x09 0 0 0 0 0)) = true ∧
    WellFormed (.setConfiguration 5 (pkt 0x00 0x09 1 0 0 0 0)) = true ∧ WellFormed (.setConfigurationBad 5 (pkt 0x00 0x09 2 0 0 0 0)) = true := by decide
theorem witness_SetDeviceFeaturePutsTheCoreToSleep : WellFormed (.setFeatureDevice 5 (pkt 0x00 0x03 1 0 0 0 0)) = true ∧ Addressed 5 s1 ∧
    wakeAdvertised s1.par = true ∧ Addressed 5 s1W ∧ wakeAdvertised s1W.par = false ∧
    WellFormed (.setFeatureBad 5 (pkt 0x00 0x03 0 0 0 0 0)) = true ∧ recipient (pkt 0x00 0x03 0 0 0 0 0) = 0 := by decide
theorem witness_LineRequestsAreAcknowledged : Addressed 5 s1 ∧ WellFormed (.setLineCoding 5 (pkt 0x21 0x20 0 0 0 0 7)) = true ∧
    WellFormed (.setControlLineState 5 (pkt 0x21 0x22 3 0 0 0 0)) = true := by decide
theorem witness_GetLineCodingOpensTheRecord : WellFormed (.getLineCoding 5 (pkt 0xA1 0x21 0 0 0 0 7)) = true ∧ Addressed 5 s1 := by decide
theorem witness_BootloaderRequestEndsTheRun : WellFormed (.resetDeviceToBootloader 5 (pkt 0x40 0x65 0 0 0 0 0)) = true ∧ Addressed 5 s1 := by decide

/-- The lengths of the state in which a cursor continues. -/
theorem witness_lengthInv : LengthInv (pending 0x06) ∧ LengthInv (pending 0x21) := by
  refine ⟨⟨?_, ?_, ?_, ?_, ?_, ?_, ?_, ?_⟩, ⟨?_, ?_, ?_, ?_, ?_, ?_, ?_, ?_⟩⟩ <;> decide
theorem witness_Ep0InCompletionFollowsThePendingRequest :
    (∀ q ∈ ([0x06, 0x21, 0x05, 0x00, 0x20, 0xFF] : List Byte), Addressed 5 (pending q) ∧ (pending q).ep0.tx.mode = .ack ∧ (pending q).ctl.pendReq = q) ∧
    LengthInv (pending 0x06) ∧ LengthInv (pending 0x21) :=
  ⟨by decide, witness_lengthInv⟩
theorem witness_LineCodingDataStageCommitsSevenBytes : Addressed 5 lineData ∧ lineData.ep0.rx.mode = .ack ∧ lineData.ctl.pendReq = 0x20 ∧
    (∀ n ∈ [0, 6, 7, 8, 64], (List.replicate n (0 : Byte)).length ≤ 64) ∧ Pid.data0 ≠ lineData.ep0.rx.tog ∧ Pid.data1 = lineData.ep0.rx.tog ∧
    ([0x3F, 0x42, 0x0F, 0, 0, 0, 8] : List Byte).length = 7 ∧ (le32 0x40 0x42 0x0F 0).toNat = 1000000 ∧ (le32 0x3F 0x42 0x0F 0).toNat = 999999 := by decide
theorem witness_StatusOutClosesTheTransfer : Addressed 5 s1 ∧ s1.ep0.rx.mode = .ack ∧ s1.ctl.pendReq ≠ 0x20 ∧
    (List.replicate 64 (0 : Byte)).length ≤ 64 := by decide
theorem witness_DataStageSendsTheClippedTable : Addressed 5 s1 ∧ isStandard (pkt 0x80 0x06 0 2 0 0 255) = true ∧
    isStandard (pkt 0xA1 0x21 0 0 0 0 7) = false ∧ strDesc s1.par 0 = some [0x04, 0x03, 0x09, 0x04] := by decide
theorem witness_LineCodingRoundTrip : WellFormed (.setLineCoding 5 (pkt 0x21 0x20 0 0 0 0 7)) = true ∧
    WellFormed (.getLineCoding 5 (pkt 0xA1 0x21 0 0 0 0 7)) = true ∧ (7 : BitVec 16).toNat ≥ 7 ∧ Addressed 5 s1 := by decide

theorem witness_BridgeInCompletionsNak : Addressed 5 (allModes .ack) ∧ (allModes .ack).ep1.tx.mode = .ack ∧ Addressed 5 armed ∧
    armed.ep2.tx.mode = .ack := by decide
theorem witness_TransfersEndIdle : Addressed 5 s1 ∧ WellFormed (.setAddress 5 (pkt 0x00 0x05 7 0 0 0 0)) = true ∧
    WellFormed (.setConfiguration 5 (pkt 0x00 0x09 1 0 0 0 0)) = true ∧ WellFormed (.setControlLineState 5 (pkt 0x21 0x22 3 0 0 0 0)) = true ∧
    (WellFormed (.clearFeatureDevice 5 (pkt 0x00 0x01 1 0 0 0 0)) = true ∧ wakeAdvertised s1.par = true) ∧
    (WellFormed (.setFeatureEndpoint 5 (pkt 0x02 0x03 0 0 0x82 0 0)) = true ∧ halfOfIndex 0x82 ≠ none) ∧
    (WellFormed (.getStatus 5 (pkt 0x80 0x00 0 0 0 0 2)) = true ∧ WellFormed (.getConfiguration 5 (pkt 0x80 0x08 0 0 0 0 1)) = true) ∧
    (isStandard (pkt 0x80 0x06 0 2 0 0 255) = true ∧ descriptorSrc s1.par (pkt 0x80 0x06 0 2 0 0 255) ≠ none ∧ (255 : BitVec 16) ≠ 0) ∧
    (WellFormed (.setLineCoding 5 (pkt 0x21 0x20 0 0 0 0 7)) = true ∧ ([1, 2, 3, 0, 0, 0, 8] : List Byte).length = 7) := by decide
theorem witness_Ep2OutCompletionAppliesBackpressure : Addressed 5 s1 ∧ s1.ep2.rx.mode = .ack ∧ (List.replicate 64 (0 : Byte)).length ≤ 64 ∧
    Pid.data0 = s1.ep2.rx.tog ∧ Pid.data1 ≠ s1.ep2.rx.tog := by decide
/-- The ends of the tick's conditions: no byte, the last byte and a full packet left; 38 and 39 bytes pending, the hundredth and the
hundred-and-first tick, a full ring, a busy endpoint; each configured and not. -/
theorem witness_TickDeliversOneByteAndDrainsTheRing : ∀ k ∈ [0, 1, 64], ∀ cfg ∈ [(0 : BitVec 1), 1],
    ∀ x ∈ [(38, 99, false), (38, 100, false), (39, 0, false), (64, 255, true), (0, 0, false)],
    let s : State := { s1 with sess := { s1.sess with cfg := cfg }, rx := ⟨k, 0⟩, tx := ⟨x.1 % 64, 0, x.1, x.2.2, x.2.1⟩ }
    Running s ∧ s.sess.cfg = cfg ∧ s.rx.count = k ∧ RingInv s := by
  intro k _ cfg _ x hx s
  refine ⟨⟨rfl, rfl⟩, rfl, rfl, ?_⟩
  simp only [List.mem_cons, List.not_mem_nil, or_false] at hx
  rcases hx with rfl | rfl | rfl | rfl | rfl <;> exact ⟨by decide +revert, by decide +revert, by decide +revert, by decide +revert, by decide +revert⟩
theorem witness_EnqueueStoresOneByteOrOverflows : Running s1 ∧ s1.tx.pend ≠ txcap s1.par ∧
    ({ s1 with tx := ⟨0, 0, 64, false, 0⟩ } : State).tx.pend = txcap s1.par := by decide
theorem witness_EmptyQueryReportsPending : Running s1 := by decide
theorem witness_BackpressureLastsExactlyNTicks : Addressed 5 s1 ∧ 1 ≤ ([0x41] : List Byte).length ∧ (List.replicate 64 (0 : Byte)).length ≤ 64 ∧
    s1.ep2.rx = ⟨.ack, .data0⟩ ∧ s1.rx.count = 0 := by decide
theorem witness_ringInv : RingInv s1 := by refine ⟨?_, ?_, ?_, ?_, ?_⟩ <;> decide
theorem witness_BatchingWaitsFor39BytesOr101Ticks : Running s1 ∧ RingInv s1 ∧ s1.sess.cfg = 1 ∧ s1.tx.busy = false ∧ s1.tx.timeout = 0 ∧
    s1.tx.pend = 0 ∧ (List.replicate 38 (0 : Byte)).length < 39 ∧ (List.replicate 38 (0 : Byte)).length ≤ txcap s1.par ∧ 39 ≤ txcap s1.par :=
  ⟨by decide, witness_ringInv, by decide, by decide, by decide, by decide, by decide, by decide, by decide⟩

theorem witness_SuspendEntersDrainWait : Running s1 := by decide
theorem witness_PollHaltsWhenTheUartIsIdle : ∀ p ∈ [PwrState.run, .drainWait, .halt],
    (s1In p .bus .none).fault = none ∧ (s1In p .bus .none).pwr.state ≠ .exited := by decide
theorem witness_WakeReturnsToRun : ∀ o ∈ [Origin.bus, .feature],
    (s1In .halt o .all).fault = none ∧ (s1In .halt o .all).pwr.state ≠ .exited ∧ (s1In .halt o .all).pwr.wakeArm.usb = true := by decide
theorem witness_BusResetRestoresTheTable : (s1.fault = none ∧ s1.pwr.state = .run) ∧
    ((s1In .halt .feature .all).fault = none ∧ (s1In .halt .feature .all).pwr.state = .halt ∧ (s1In .halt .feature .all).pwr.wakeArm.usb = true) ∧
    (∀ p ∈ [PwrState.drainWait, .exited], (s1In p .bus .none).fault = none ∧ (s1In p .bus .none).pwr.state = p) := by decide
theorem witness_PowerStateGatesEveryOperation : ∀ p ∈ [PwrState.run, .drainWait, .halt, .exited],
    (s1In p .bus .none).fault = none ∧ (s1In p .bus .none).pwr.state = p := by decide
theorem witness_PowerStateMovesOnlyAlongItsTable : WellFormed .busSuspend = true ∧
    exec .busSuspend s1 = .next (suspEnter .bus s1) ∧ (suspEnter .bus s1).pwr.state ≠ s1.pwr.state := ⟨by decide, rfl, by decide⟩
theorem witness_SuspendCycleRestoresTheState : Running s1 ∧ s1.pwr.wakeArm = ⟨false, false, false⟩ ∧ s1.sess.suspended = false ∧
    (∀ i ∈ [Instr.inEp2 5 true, .outEp0 4 .data0 [], .rxd0Low, .poll true], opClass i ∈ [.token, .resume, .rxd0, .rxd1] ∨ i = .poll true) ∧
    (∀ i ∈ [Instr.busSuspend, .poll false], opClass i ∈ [.suspend, .poll]) ∧
    opClass (.inEp1 5 false) ∈ [OpClass.setup, .token, .resume, .rxd0, .rxd1] ∧ opClass .resume ∈ [OpClass.setup, .token, .resume, .rxd0, .rxd1] ∧
    WellFormed (.setFeatureDevice 5 (pkt 0x00 0x03 1 0 0 0 0)) = true ∧ Addressed 5 s1 ∧ wakeAdvertised s1.par = true := by decide
theorem witness_FaultMarkStopsEveryOperation : ({ s1 with fault := some .txOverflow } : State).fault = some .txOverflow := by decide

/-- A half-drained packet whose endpoint CLEAR_FEATURE(0x02) has reopened (R151), with an out-of-sync OUT next on the interface. -/
def reopened : State := { s1 with
  ep2 := ⟨⟨.nak, .data0⟩, ⟨.ack, .data0⟩, 0, 1⟩, rx := ⟨1, 0⟩, mem := { Memory.unwritten with ep2rx := [(0, 0x41)] },
  input := [0x02, 0x05, 0x01, 0x02, 0x42, 0x43] }
theorem witness_machineInv : MachineInv reopened := by
  refine ⟨by decide, ⟨by decide, by decide, by decide, by decide, by decide⟩,
    ⟨by decide, by decide, by decide, by decide, by decide, by decide, by decide, by decide⟩,
    ⟨by decide, by decide, by decide, by decide⟩, ⟨by decide, by decide, by decide⟩, ⟨?_, rfl, ?_, ?_, ?_⟩⟩
  · exact fun x hx => absurd hx (Nat.not_lt_zero x)
  · exact fun x hx => absurd hx (Nat.not_lt_zero x)
  · intro _ x hx
    obtain rfl : x = 0 := Nat.lt_one_iff.1 hx
    decide
  · exact fun x hx => absurd hx (Nat.not_lt_zero x)
theorem witness_EveryStepKeepsTheInvariant : MachineInv reopened ∧ ∃ t, step reopened = .next t := ⟨witness_machineInv, _, rfl⟩
theorem witness_RxCountAddsUpToThePacketLength : MachineInv reopened ∧ (reopened.rx.count > 0 → reopened.rx.off + reopened.rx.count = reopened.ep2.rxLen) ∧
    ∃ t, step reopened = .next t := ⟨witness_machineInv, by decide, _, rfl⟩

theorem witness_TogglesChangeOnlyAtFlipPoints : WellFormed (.inEp2 5 true) = true ∧
    onNext (exec (.inEp2 5 true) armed) (fun t => (t.half .ep2 .tx).tog != (armed.half .ep2 .tx).tog) = true := by decide
theorem witness_ModesHaveNoOtherWriters : WellFormed (.inEp2 5 true) = true ∧
    onNext (exec (.inEp2 5 true) armed) (fun t => (t.half .ep2 .tx).mode != (armed.half .ep2 .tx).mode) = true := by decide
/-- A next state in which the address, the configuration or the line coding has changed. -/
theorem witness_SessionAndTablesHaveTheirOnlyWriters : onNext (exec .busReset s1) (fun t => t.sess.addr != s1.sess.addr && t.sess.cfg != s1.sess.cfg) = true ∧
    onNext (exec (.outEp0 5 .data1 [1, 0, 0, 0, 0, 0, 8]) lineData) (fun t => t.lc != lineData.lc) = true ∧
    WellFormed (.setAddress 5 (pkt 0x00 0x05 9 0 0 0 0)) = true ∧
    onNext (exec (.setAddress 5 (pkt 0x00 0x05 9 0 0 0 0)) s1) (fun t => t.sess.pendAddr != s1.sess.pendAddr) = true ∧
    onNext (exec .busSuspend s1) (fun t => t.sess.suspended) = true ∧
    onNext (exec (.inEp0 5 true) { s1In .halt .bus .all with sess := { s1.sess with suspended := true } }) (fun t => !t.sess.suspended) = true := by decide
theorem witness_CursorOnlyAdvancesBetweenSetups : opClass (.inEp0 5 true) ≠ .setup ∧ Instr.inEp0 5 true ≠ .busReset ∧
    onNext (exec (.inEp0 5 true) { s1 with ep0 := ep0Ok 0, ctl := ⟨none, 0x06, ⟨.cfg, 0, 67⟩, .dataIn⟩ }) (fun t => t.ctl.cur == ⟨.cfg, 64, 3⟩) = true := by decide
theorem witness_ContextsShareOnlyTheListedState : contextOf .tick = .mainLoop ∧ contextOf .busReset = .isr ∧
    onNext (exec .tick s1) (fun _ => true) = true ∧ onNext (exec .busReset s1) (fun _ => true) = true := by decide
theorem witness_BulkOutZlpLeavesTheHalfStuck : (let s : State := { s1 with ep2 := { s1.ep2 with rx := ⟨.nak, .data0⟩ } }
      WellFormed (.outEp2 5 .data0 [0x41]) = true ∧ s.ep2.rx.mode = .nak ∧ s.rx.count = 0 ∧
      featureOn (.outEp2 5 .data0 [0x41]) .ep2 .rx = false ∧ Instr.outEp2 5 .data0 [0x41] ≠ .busReset ∧
      onNext (exec (.outEp2 5 .data0 [0x41]) s) (fun t => t.ep2.rx.mode == .nak) = true) ∧
    Addressed 5 s1 ∧ s1.ep2.rx = ⟨.ack, .data0⟩ ∧
    WellFormed (.clearFeatureEndpoint 5 (pkt 0x02 0x01 0 0 0x02 0 0)) = true := by decide
theorem witness_BusyStaysSetUntilABusReset : let s : State := { armed with ep2 := { armed.ep2 with tx := ⟨.nak, .data0⟩ } }
    WellFormed .tick = true ∧ s.tx.busy = true ∧ s.ep2.tx.mode ≠ .ack ∧ Instr.tick ≠ .busReset ∧ onNext (exec .tick s) (fun t => t.tx.busy) = true := by decide

end Sys2Proof.Tests
end

section
/-! PROOFS, family 00: the round trip of the encoder and the decoder, and with it the step (O5); the shape of a request that
FAILs, and the device-sleep command (O23). -/

namespace Sys2Proof.Machine
open Sys2Proof

/-! ### A step runs what is encoded next -/

theorem deviceFeature_eq_decide (r : SetupRequest) :
    WellFormed.deviceFeature r = decide (recipient r = 0 ∧ wValue r = 1) := by
  rw [Bool.decide_and]
  rfl

theorem endpointFeature_eq_decide (r : SetupRequest) :
    WellFormed.endpointFeature r = decide (recipient r = 2 ∧ wValue r = 0) := by
  rw [Bool.decide_and]
  rfl

theorem addressValue_eq_decide (r : SetupRequest) :
    WellFormed.addressValue r = decide (r.wValueH = 0 ∧ r.wValueL.toNat ≤ 127) := by
  rw [Bool.decide_and]
  rfl

/-- A well-formed request row is the first row of the table its packet matches (R57 to R60, R65). -/
theorem decodeRequest_of_wellFormed {i : Instr} {a : DevAddr} {r : SetupRequest} (hr : requestOf i = some (a, r))
    (hs : ∀ b d, i ≠ .setup b d) (hw : WellFormed i = true) : decodeRequest a r = i := by
  cases i
  case setup b d => exact absurd rfl (hs b d)
  all_goals cases hr
  all_goals
    simp_all [decodeRequest_eq, WellFormed, WellFormed.std, WellFormed.nonstd, deviceFeature_eq_decide,
      endpointFeature_eq_decide, addressValue_eq_decide, -Bool.decide_and, -not_and]

/-- The encoding of a request row is the SETUP of its packet (R65). -/
theorem encode_of_requestOf {i : Instr} {a : DevAddr} {r : SetupRequest} (hr : requestOf i = some (a, r))
    (hs : ∀ b d, i ≠ .setup b d) : encode i = encodeRequest a r := by
  cases i
  case setup b d => exact absurd rfl (hs b d)
  all_goals cases hr
  all_goals rfl

/-- A well-formed request row decodes from its encoding. -/
theorem decode_encode_request {i : Instr} {a : DevAddr} {r : SetupRequest} (hr : requestOf i = some (a, r))
    (hs : ∀ b d, i ≠ .setup b d) (hw : WellFormed i = true) (rest : List Byte) :
    decode (encode i ++ rest) = .ok (i, rest) := by
  rw [encode_of_requestOf hr hs, decode_encodeRequest, decodeRequest_of_wellFormed hr hs hw]

/-- A SETUP of another length than 8 is no request (R65). -/
theorem setupInstr_of_length_ne {data : List Byte} (h : data.length ≠ 8) (a : DevAddr) : setupInstr a data = .setup a data := by
  simp [setupInstr, packetOf_eq_none.2 h]

/-- The decoder reads a well-formed instruction back from its encoding, and leaves the bytes after it. -/
theorem decode_encode {i : Instr} (hw : WellFormed i = true) (rest : List Byte) : decode (encode i ++ rest) = .ok (i, rest) := by
  cases i
  case setup a data =>
    simp only [WellFormed, Bool.and_eq_true, decide_eq_true_eq, bne_iff_ne] at hw
    obtain ⟨hlen, h8⟩ := hw
    rw [encode, decode_encodeSetup 0 a hlen, if_pos rfl, setupInstr_of_length_ne h8]
  case setupUndeclaredEp ep a data =>
    simp only [WellFormed, Bool.and_eq_true, decide_eq_true_eq, bne_iff_ne] at hw
    obtain ⟨hep, hlen⟩ := hw
    rw [encode, decode_encodeSetup ep a hlen, if_neg hep]
  case inEp0 a acks => exact decode_encodeIn 0 a acks rest
  case inEp1 a acks => exact decode_encodeIn 1 a acks rest
  case inEp2 a acks => exact decode_encodeIn 2 a acks rest
  case inUndeclaredEp ep a acks =>
    simp only [WellFormed, Bool.and_eq_true, bne_iff_ne] at hw
    obtain ⟨⟨h0, h1⟩, h2⟩ := hw
    rw [encode, decode_encodeIn, if_neg h0, if_neg h1, if_neg h2]
  case outEp0 a pid data => exact decode_encodeOut 0 a pid (of_decide_eq_true hw) rest
  case outEp2 a pid data => exact decode_encodeOut 2 a pid (of_decide_eq_true hw) rest
  case outUndeclaredEp ep a pid data =>
    simp only [WellFormed, Bool.and_eq_true, decide_eq_true_eq, bne_iff_ne] at hw
    obtain ⟨⟨h0, h2⟩, hlen⟩ := hw
    rw [encode, decode_encodeOut ep a pid hlen, if_neg h0, if_neg h2]
  case busReset => rfl
  case busSuspend => rfl
  case resume => rfl
  case rxd0Low => rfl
  case rxd1Low => rfl
  case poll uart => cases uart <;> rfl
  case tick => rfl
  case enq b => rfl
  case emptyQuery => rfl
  all_goals exact decode_encode_request rfl (fun _ _ => by simp) hw rest

/-- A step runs the operation its waiting bytes decode to. -/
theorem step_of_decode {s : State} {i : Instr} {rest : List Byte} (h : decode s.input = .ok (i, rest)) :
    step s = exec i { s with input := rest } := by
  simp [step, h]

/-- Settles O5: the round trip of the encoder says what the waiting bytes decode to. -/
theorem stepRunsTheDecodedOperation : Obligations.StepRunsTheDecodedOperation := by
  intro s i rest hw hinput
  exact step_of_decode (hinput ▸ decode_encode hw rest)

/-! ### A request that FAILs -/

/-- A row whose handler answers FAIL(k) and leaves the prepared state alone is a failing request (R79, R83). -/
theorem requestFails_of_handler {i : Instr} {a : DevAddr} {r : SetupRequest} {f : Handler} {k : FailKind} {s : State}
    (ha : Addressed a s) (hx : exec i s = setupGate (requestTransaction a r f) s)
    (hf : f r (prepared r s) = (.fail k, prepared r s)) : requestFails i r k s := by
  refine ⟨s.mem.write .ep0rx 0 (packetBytes r), ?_, packetLands_write r s⟩
  rw [hx, requestGate_addressed ha, acceptedRequest_eq, hf]
  rfl

/-! ### The device-sleep command -/

/-- A well-formed SET_FEATURE_DEVICE carries the request code 3 and the selector 1 (R57, R60). -/
theorem setFeatureDevice_fields {a : DevAddr} {r : SetupRequest} (hw : WellFormed (.setFeatureDevice a r) = true) :
    r.bRequest = 0x03 ∧ wValue r = 1 := by
  simp only [WellFormed, WellFormed.std, deviceFeature_eq_decide, Bool.and_eq_true, beq_iff_eq, decide_eq_true_eq] at hw
  obtain ⟨⟨-, hcode⟩, -, hsel⟩ := hw
  exact ⟨hcode, hsel⟩

/-- With selector 1, the device-sleep command asks only whether wake is advertised (R92). -/
theorem handleSetFeatureDevice_of_selector {r : SetupRequest} (hv : wValue r = 1) (s : State) :
    handleSetFeatureDevice r s = (if wakeAdvertised s.par then .sleep else .fail .unsupportedRequest, s) := by
  cases hk : wakeAdvertised s.par <;> simp [handleSetFeatureDevice, hv, hk]

/-- A Setup step whose handler answers SLEEP enters the suspend sequence after the ACK, and applies no response to EP0
(R79, R92, R121). -/
theorem finishSetup_sleep_prepared (r : SetupRequest) (s : State) :
    finishSetup r (.sleep, prepared r s) = { s with
      mem := s.mem.write .ep0rx 0 (packetBytes r), out := s.out ++ [.response .ack, .powerDown],
      ep0 := { s.ep0 with rxLen := 8 }, ctl := ⟨some r, r.bRequest, .empty, s.ctl.stage⟩,
      sess := { s.sess with suspended := true }, pwr := ⟨.drainWait, .feature, s.pwr.wakeArm⟩ } := by
  simp [finishSetup, suspEnter, prepared, State.emit]

/-- Settles O23: the handler answers SLEEP when wake is advertised and FAIL otherwise; the row for the other selectors has the
handler that always fails. -/
theorem setDeviceFeaturePutsTheCoreToSleep : Obligations.SetDeviceFeaturePutsTheCoreToSleep := by
  intro a r s ha
  refine ⟨fun hw hwake => ?_, fun hw hwake => ?_, fun _ _ => requestFails_of_handler ha rfl rfl⟩
  · obtain ⟨hcode, hsel⟩ := setFeatureDevice_fields hw
    have hsleep : handleSetFeatureDevice r (prepared r s) = (.sleep, prepared r s) := by
      rw [handleSetFeatureDevice_of_selector hsel, if_pos (show wakeAdvertised (prepared r s).par = true from hwake)]
    refine ⟨s.mem.write .ep0rx 0 (packetBytes r), packetLands_write r s, ?_⟩
    rw [exec, execSetFeatureDevice, requestGate_addressed ha, acceptedRequest_eq, hsleep, finishSetup_sleep_prepared, hcode]
  · obtain ⟨-, hsel⟩ := setFeatureDevice_fields hw
    refine requestFails_of_handler ha rfl ?_
    rw [handleSetFeatureDevice_of_selector hsel, if_neg (show ¬ wakeAdvertised (prepared r s).par = true by simp [prepared, hwake])]

end Sys2Proof.Machine
end

section
/-! PROOFS, family 10: what decodes is well formed, so a step runs a well-formed operation; and the fault mark stops every operation
(O48). -/

namespace Sys2Proof.Machine
open Sys2Proof

/-! ### What decodes is well formed -/

theorem wellFormed_decodeRequest (a : DevAddr) (r : SetupRequest) : WellFormed (decodeRequest a r) = true := by
  rw [decodeRequest_eq]
  split_ifs <;> simp_all [WellFormed, WellFormed.std, WellFormed.nonstd, deviceFeature_eq_decide, endpointFeature_eq_decide,
    addressValue_eq_decide, -Bool.decide_and, -not_and]

theorem wellFormed_setupInstr {data : List Byte} (h : data.length ≤ 255) (a : DevAddr) :
    WellFormed (setupInstr a data) = true := by
  unfold setupInstr
  split
  · exact wellFormed_decodeRequest _ _
  · rename_i hnone
    simp [WellFormed, h, packetOf_eq_none.1 hnone]

theorem wellFormed_decodeOut {ep : BitVec 4} {l rest : List Byte} {i : Instr} (h : decodeOut ep l = .ok (i, rest)) :
    WellFormed i = true := by
  obtain ⟨a, pid, data, rfl, hl, -⟩ := decodeOutOperands_ok h
  split_ifs <;> simp_all [WellFormed]

theorem wellFormed_decodeIn {ep : BitVec 4} {l rest : List Byte} {i : Instr} (h : decodeIn ep l = .ok (i, rest)) :
    WellFormed i = true := by
  obtain ⟨a, acks, rfl, -⟩ := decodeInOperands_ok h
  split_ifs <;> simp_all [WellFormed]

theorem wellFormed_decodeSetup {ep : BitVec 4} {l rest : List Byte} {i : Instr} (h : decodeSetup ep l = .ok (i, rest)) :
    WellFormed i = true := by
  obtain ⟨a, data, rfl, hl, -⟩ := decodeSetupOperands_ok h
  split_ifs with hep
  · exact wellFormed_setupInstr hl a
  · simpa [WellFormed, hl] using hep

theorem wellFormed_decodeEvent {op : Byte} {l rest : List Byte} {i : Instr} (h : decodeEvent op l = .ok (i, rest)) :
    WellFormed i = true := by
  unfold decodeEvent decodePoll decodeEnq at h
  repeat' split at h
  all_goals cases h
  all_goals rfl

/-- Decoding gives well-formed instructions only. -/
theorem wellFormed_of_decode {bs rest : List Byte} {i : Instr} (h : decode bs = .ok (i, rest)) : WellFormed i = true := by
  unfold decode at h
  split at h
  · cases h
  · split_ifs at h
    · exact wellFormed_decodeOut h
    · exact wellFormed_decodeIn h
    · exact wellFormed_decodeSetup h
    · exact wellFormed_decodeEvent h

/-- A step that has a next state ran a well-formed operation. -/
theorem step_next {s t : State} (h : step s = .next t) :
    ∃ i rest, WellFormed i = true ∧ exec i { s with input := rest } = .next t := by
  unfold step at h
  split at h
  · rename_i i rest hd
    exact ⟨i, rest, wellFormed_of_decode hd, h⟩
  · cases h

/-! ### The fault mark -/

/-- Settles O48: every gate of R124 asks for the mark first. -/
theorem faultMarkStopsEveryOperation : Obligations.FaultMarkStopsEveryOperation := by
  intro i s k hk
  obtain ⟨-, run, h⟩ | ⟨-, a, run, -, h⟩ | ⟨-, run, h⟩ | ⟨-, h⟩ | ⟨-, h⟩ | ⟨-, h⟩ | rfl | rfl | ⟨u, rfl⟩ :=
    exec_shape i
  · simp [h, setupGate, unlessFaulted, hk]
  · simp [h, tokenGate, unlessFaulted, hk]
  · simp [h, mainGate, unlessFaulted, hk]
  · simp [h, wakeGate, unlessFaulted, hk]
  · simp [h, wakeGate, unlessFaulted, hk]
  · simp [h, wakeGate, unlessFaulted, hk]
  · simp [exec, execBusReset, unlessFaulted, hk]
  · simp [exec, execBusSuspend, unlessFaulted, hk]
  · simp [exec, execPoll, unlessFaulted, hk]

end Sys2Proof.Machine
end

section
/-! PROOFS, family 10: the machine's invariant holds at power-on (O50), and each operation outside the Setup step keeps it. -/

namespace Sys2Proof.Machine
open Sys2Proof

/-! ### Known bytes and table lengths -/

/-- A write forgets no byte. -/
theorem known_write_of_known {sp sp' : Space} (hr : isRam sp = true) (x : Nat) (bs : List Byte) {s : State} {y : Nat}
    (h : (s.known sp' y).isSome = true) : (({ s with mem := s.mem.write sp x bs } : State).known sp' y).isSome = true := by
  rw [known_write hr]
  split
  · rename_i hy
    rw [List.getElem?_eq_getElem (by omega : y - x < bs.length)]
    rfl
  · exact h

theorem knownBelow_write {sp sp' : Space} (hr : isRam sp = true) (x : Nat) (bs : List Byte) {s : State} {n : Nat}
    (h : knownBelow sp' n s) : knownBelow sp' n { s with mem := s.mem.write sp x bs } :=
  fun y hy => known_write_of_known hr x bs (h y hy)

/-- What the last write has written from offset 0 on is known. -/
theorem knownBelow_of_written {sp : Space} (hr : isRam sp = true) {m : Memory} {bs : List Byte} {n : Nat} {t : State}
    (hm : t.mem = m.write sp 0 bs) (hn : n ≤ bs.length) : knownBelow sp n t := by
  intro y hy
  have hknown := known_write hr 0 bs { t with mem := m } sp y
  rw [if_pos ⟨rfl, by omega, by omega⟩, List.getElem?_eq_getElem (by omega)] at hknown
  simp only [← hm] at hknown
  simp [hknown]

/-- A write keeps what the invariant says of known bytes. -/
theorem WrittenInv.write {s : State} (h : WrittenInv s) {sp : Space} (hr : isRam sp = true) (x : Nat) (bs : List Byte) :
    WrittenInv { s with mem := s.mem.write sp x bs } where
  ep0 := knownBelow_write hr x bs h.ep0
  ep1 := h.ep1
  ep2 := knownBelow_write hr x bs h.ep2
  rx := fun hc => knownBelow_write hr x bs (h.rx hc)
  ring := fun k hk => known_write_of_known hr x bs (h.ring k hk)

/-- The length of a table depends on the parameters alone: the line-coding record has seven bytes whatever it holds. -/
theorem tableLen_congr {s t : State} (hp : t.par = s.par) (src : CursorSrc) : tableLen src t = tableLen src s := by
  cases src <;> simp [tableLen, spaceOf, State.table, hp, LineCoding.bytes]

theorem cursorLen_le_maxPkt (s : State) : cursorLen s ≤ 64 := Nat.min_le_right _ _

theorem cursorLen_le_remaining (s : State) : cursorLen s ≤ s.ctl.cur.remaining := Nat.min_le_left _ _

/-- What the cursor's next packet takes from `remaining` it adds to `off` (R85). -/
theorem cursor_off_add_remaining (s : State) :
    s.ctl.cur.off + cursorLen s + (s.ctl.cur.remaining - cursorLen s) = s.ctl.cur.off + s.ctl.cur.remaining := by
  have hrem := cursorLen_le_remaining s
  omega

/-- A cursor within its table has as many bytes for its next packet as the packet is long; without a table that is none. -/
theorem cursorBytes_cursorLen_length {s : State} (h : s.ctl.cur.off + s.ctl.cur.remaining ≤ tableLen s.ctl.cur.src s) :
    (cursorBytes (cursorLen s) s).length = cursorLen s := by
  cases hsp : spaceOf s.ctl.cur.src with
  | some sp => exact cursorBytes_length hsp _
  | none =>
    have hlen := cursorLen_le_remaining s
    simp only [tableLen, hsp] at h
    simp only [cursorBytes, hsp, List.length_nil]
    omega

/-! ### The ring -/

/-- The ring invariant in the form in which a write and a drain keep it: the write offset is `pend` places after the read
offset. -/
theorem pend_mod_iff {cap w r p : Nat} (hw : w < cap) (hr : r < cap) :
    p % cap = (w + cap - r) % cap ↔ (r + p) % cap = w := by
  have hsum : r + (w + cap - r) = w + cap := by omega
  have hmod : (w + cap) % cap = w := by rw [Nat.add_mod_right, Nat.mod_eq_of_lt hw]
  constructor
  · intro h
    rw [Nat.ModEq.add_left (n := cap) r h, hsum, hmod]
  · intro h
    refine Nat.ModEq.add_left_cancel' (n := cap) r ?_
    rw [Nat.ModEq, hsum, h, hmod]

theorem txcap_pos (p : Params) : 0 < txcap p := Nat.succ_pos _

theorem RingInv.w_eq {s : State} (h : RingInv s) : (s.tx.r + s.tx.pend) % txcap s.par = s.tx.w :=
  (pend_mod_iff h.w_lt h.r_lt).1 h.pend_mod

theorem drainLen_le_pend (p : Params) (t : TxRing) : drainLen p t ≤ t.pend :=
  (Nat.min_le_left _ _).trans (Nat.min_le_left _ _)

theorem drainLen_le_maxPkt (p : Params) (t : TxRing) : drainLen p t ≤ 64 := Nat.min_le_right _ _

theorem drainLen_pos {s : State} (h : RingInv s) (hp : 0 < s.tx.pend) : 1 ≤ drainLen s.par s.tx := by
  have hr := h.r_lt
  simp only [drainLen, maxPkt]
  omega

/-! ### The power-on state -/

theorem machineInv_powerOn (p : Params) : MachineInv (State.powerOn p) where
  mem := wf_unwritten p
  ring := ⟨txcap_pos p, txcap_pos p, Nat.zero_le _, by simp [State.powerOn], Nat.two_pow_pos _⟩
  len := by constructor <;> exact Nat.zero_le _
  power := ⟨nofun, fun _ => rfl, by simp [State.powerOn], by simp [State.powerOn]⟩
  endpoint := ⟨nofun, nofun, fun _ => nofun⟩
  written := ⟨nofun, rfl, nofun, nofun, nofun⟩

/-- Settles O50: at power-on nothing is pending, armed or listed, whatever the parameters. -/
theorem powerOnMeetsTheInvariant : Obligations.PowerOnMeetsTheInvariant :=
  ⟨machineInv_powerOn, machineInv_powerOn Config.params⟩

/-! ### The operations outside the Setup step -/

namespace MachineInv
variable {s : State}

theorem emit (h : MachineInv s) (e : Event) : MachineInv (s.emit e) :=
  ⟨h.mem, { h.ring with }, { h.len with }, { h.power with }, { h.endpoint with }, { h.written with }⟩

theorem raise (h : MachineInv s) (k : Fault) : MachineInv (s.raise k) :=
  ⟨h.mem, { h.ring with }, { h.len with }, { h.power with }, { h.endpoint with }, { h.written with }⟩

/-- The operations still waiting are no part of the invariant. -/
theorem withInput (h : MachineInv s) (bs : List Byte) : MachineInv { s with input := bs } :=
  ⟨h.mem, { h.ring with }, { h.len with }, { h.power with }, { h.endpoint with }, { h.written with }⟩

theorem busResetNow (h : MachineInv s) (hp : s.pwr.state = .run) : MachineInv (busResetNow s) where
  mem := h.mem
  ring := { h.ring with }
  len := by constructor <;> exact Nat.zero_le _
  power := { h.power with
    suspended := by simp [Machine.busResetNow, hp]
    sleeping := by simp [Machine.busResetNow, hp] }
  endpoint := ⟨nofun, nofun, fun _ => nofun⟩
  written := { h.written with ep0 := nofun, ep1 := rfl, ep2 := nofun, rx := nofun }

theorem suspEnter_bus (h : MachineInv s) (hp : s.pwr.state = .run) : MachineInv (suspEnter .bus s) where
  mem := h.mem
  ring := { h.ring with }
  len := { h.len with }
  power := ⟨nofun, fun _ => h.power.unarmed (by simp [hp]), by simp, nofun⟩
  endpoint := { h.endpoint with }
  written := { h.written with }

theorem haltNow (h : MachineInv s) (hp : s.pwr.state = .drainWait) : MachineInv (haltNow s) where
  mem := h.mem
  ring := { h.ring with }
  len := { h.len with }
  power :=
    { armed := fun _ => rfl
      unarmed := fun hne => absurd rfl hne
      suspended := iff_of_true (h.power.suspended.2 (.inl hp)) (.inr rfl)
      sleeping := fun _ => h.power.sleeping (.inl hp) }
  endpoint := { h.endpoint with }
  written := { h.written with }

/-- The deferred SetupOK(0) of the sleep request leaves EP0 IN on ACK, and the request is still pending then (R123). -/
theorem wakeNow (h : MachineInv s) (hp : s.pwr.state = .halt) : MachineInv (wakeNow s) := by
  rw [wakeNow_eq]
  by_cases ho : s.pwr.origin = .feature
  · have hpend := h.power.sleeping (.inr hp) ho
    simp only [ho, if_true]
    exact {
      mem := h.mem
      ring := { h.ring with }
      len := { h.len with tx0 := Nat.zero_le _ }
      power := ⟨nofun, fun _ => rfl, by simp, by simp⟩
      endpoint := { h.endpoint with ep0 := fun hff => by simp [hpend] at hff }
      written := { h.written with ep0 := nofun } }
  · simp only [ho, if_false]
    exact ⟨h.mem, { h.ring with }, { h.len with }, ⟨nofun, fun _ => rfl, by simp, by simp⟩, { h.endpoint with },
      { h.written with }⟩

theorem wake (h : MachineInv s) (hp : s.pwr.state = .halt) (src : WakeSrc) : MachineInv (wake src s) := by
  rw [wake_all (h.power.armed hp)]
  exact h.wakeNow hp

/-! The main loop. -/

theorem rxStep (h : MachineInv s) : MachineInv (rxStep s) := by
  rw [rxStep_eq]
  split
  · exact h
  · rename_i hc
    have hsum : s.rx.off + 1 + (s.rx.count - 1) = s.rx.off + s.rx.count := by omega
    exact {
      mem := h.mem
      ring := { h.ring with }
      len := { h.len with rxBytes := hsum ▸ h.len.rxBytes }
      power := { h.power with }
      endpoint := { h.endpoint with }
      written := { h.written with rx := fun _ => hsum ▸ h.written.rx (Nat.pos_of_ne_zero hc) } }

theorem countedTimeout_lt (h : MachineInv s) : countedTimeout s.par s.tx < 2 ^ wTo s.par := by
  unfold countedTimeout
  split
  · exact Nat.mod_lt _ (Nat.two_pow_pos _)
  · exact h.ring.timeout_lt

/-- A drain moves bytes of the ring that have been written into EP2TX, and takes the read offset along (R115). -/
theorem txStep (h : MachineInv s) : MachineInv (txStep s) := by
  rw [txStep_eq]
  split_ifs with hc hd
  · have hpend := drainLen_le_pend s.par s.tx
    have hlen := drainLen_le_maxPkt s.par s.tx
    have hr' := Nat.mod_lt (s.tx.r + drainLen s.par s.tx) (txcap_pos s.par)
    have hwritten := h.written.write (sp := .ep2tx) rfl 0 (s.memReadN .ring s.tx.r (drainLen s.par s.tx))
    exact {
      mem := wf_write (by simpa [ramSize] using hlen) h.mem
      ring :=
        { w_lt := h.ring.w_lt
          r_lt := hr'
          pend_le := (Nat.sub_le _ _).trans h.ring.pend_le
          pend_mod := by
            rw [pend_mod_iff h.ring.w_lt hr', Nat.mod_add_mod, Nat.add_assoc, Nat.add_sub_cancel' hpend, h.ring.w_eq]
          timeout_lt := Nat.two_pow_pos _ }
      len := { h.len with tx2 := hlen }
      power := { h.power with }
      endpoint := { h.endpoint with ep2 := fun _ => ⟨rfl, drainLen_pos h.ring hd.2.1⟩ }
      written := { hwritten with
        ep2 := knownBelow_of_written rfl rfl (by simp)
        ring := fun k (hk : k < s.tx.pend - drainLen s.par s.tx) => by
          have hold := hwritten.ring (drainLen s.par s.tx + k) (Nat.add_lt_of_lt_sub' hk)
          rw [← Nat.add_assoc, ← Nat.mod_add_mod] at hold
          exact hold } }
  · exact ⟨h.mem, { h.ring with timeout_lt := h.countedTimeout_lt }, { h.len with }, { h.power with }, { h.endpoint with },
      { h.written with }⟩
  · exact h

/-- An enqueued byte lands at the write offset, which is the place after the last pending byte (R114). -/
theorem enqueue (h : MachineInv s) (b : Byte) (hc : s.tx.pend ≠ txcap s.par) : MachineInv (enqueue b s) := by
  have hw := h.ring.w_lt
  have hw' := Nat.mod_lt (s.tx.w + 1) (txcap_pos s.par)
  have hwritten := h.written.write (sp := .ring) rfl s.tx.w [b]
  exact {
    mem := wf_write (show s.tx.w + 1 ≤ txcap s.par from hw) h.mem
    ring :=
      { w_lt := hw'
        r_lt := h.ring.r_lt
        pend_le := Nat.lt_of_le_of_ne h.ring.pend_le hc
        pend_mod := (pend_mod_iff hw' h.ring.r_lt).2 (by
          simp only [Machine.enqueue]
          rw [← Nat.add_assoc, ← Nat.mod_add_mod, h.ring.w_eq])
        timeout_lt := h.ring.timeout_lt }
    len := { h.len with }
    power := { h.power with }
    endpoint := { h.endpoint with }
    written := { hwritten with
      ring := fun k (hk : k < s.tx.pend + 1) => by
        rcases Nat.lt_succ_iff_lt_or_eq.1 hk with hlt | rfl
        · exact hwritten.ring k hlt
        · show (State.known .ring ((s.tx.r + s.tx.pend) % txcap s.par)
            { s with mem := s.mem.write .ring s.tx.w [b] }).isSome = true
          rw [h.ring.w_eq, known_write rfl]
          simp } }

/-! The completions of the data endpoints. -/

theorem ep2InComplete (h : MachineInv s) : MachineInv (ep2InComplete (advance .ep2 .tx (sent .ep2 .ep2tx s))) :=
  ⟨h.mem, { h.ring with }, { h.len with tx2 := Nat.zero_le _ }, { h.power with }, { h.endpoint with ep2 := nofun },
    { h.written with ep2 := nofun }⟩

theorem acceptOut_ep2 (h : MachineInv s) (pid : Pid) {data : List Byte} (hl : data.length ≤ 64) :
    MachineInv (acceptOut .ep2 .ep2rx ep2OutComplete pid data s) := by
  have hmem : (s.mem.write .ep2rx 0 data).wf s.par = true := wf_write (by simpa [ramSize] using hl) h.mem
  have hwritten := h.written.write (sp := .ep2rx) rfl 0 data
  rw [acceptOut_ep2_eq]
  split
  · exact ⟨hmem, { h.ring with }, { h.len with rx2 := hl, rxBytes := (Nat.zero_add _).trans_le hl }, { h.power with },
      { h.endpoint with }, { hwritten with rx := fun _ => knownBelow_of_written rfl rfl (by simp) }⟩
  · exact ⟨hmem, { h.ring with }, { h.len with rx2 := hl }, { h.power with }, { h.endpoint with }, { hwritten with }⟩

/-! The completions of EP0. -/

theorem ep0InComplete (h : MachineInv s) : MachineInv (ep0InComplete s) := by
  rw [ep0InComplete_eq]
  split_ifs with hcur haddr
  · have hbytes := cursorBytes_cursorLen_length h.len.cursor
    have hlen := cursorLen_le_maxPkt s
    have hcursor := (cursor_off_add_remaining s).trans_le h.len.cursor
    exact {
      mem := wf_write (by simpa [hbytes, ramSize] using hlen) h.mem
      ring := { h.ring with }
      len := { h.len with tx0 := hlen, cursor := hcursor.trans_eq (tableLen_congr (by rfl) _).symm }
      power := { h.power with }
      endpoint := { h.endpoint with }
      written := { h.written.write (sp := .ep0tx) rfl 0 (cursorBytes (cursorLen s) s) with
        ep0 := knownBelow_of_written rfl rfl hbytes.ge } }
  · exact ⟨h.mem, { h.ring with }, { h.len with }, { h.power with }, { h.endpoint with ep0 := fun _ => nofun },
      { h.written with }⟩
  · exact ⟨h.mem, { h.ring with }, { h.len with tx0 := Nat.zero_le _ }, { h.power with },
      { h.endpoint with ep0 := fun _ => nofun }, { h.written with ep0 := nofun }⟩

theorem commitLineCoding (h : MachineInv s) (hp : s.ctl.pendReq = 0x20) : MachineInv (commitLineCoding s) :=
  ⟨h.mem, { h.ring with },
    { h.len with tx0 := Nat.zero_le _, cursor := h.len.cursor.trans_eq (tableLen_congr (by rfl) _).symm },
    { h.power with }, { h.endpoint with ep0 := fun hff => by simp [Machine.commitLineCoding, hp] at hff },
    { h.written with ep0 := nofun }⟩

theorem statusOut (h : MachineInv s) : MachineInv (statusOut s) := by
  rw [statusOut_eq]
  exact ⟨h.mem, { h.ring with }, { h.len with tx0 := Nat.zero_le _ }, { h.power with },
    { h.endpoint with ep0 := fun _ => nofun }, { h.written with ep0 := nofun }⟩

theorem ep0OutComplete (h : MachineInv s) (sync : Bool) : MachineInv (ep0OutComplete sync s) := by
  obtain ⟨hp, h' | h' | ⟨-, -, h'⟩⟩ | ⟨-, h'⟩ := ep0OutComplete_cases sync s <;> rw [h']
  · exact h
  · exact h.raise _
  · exact h.commitLineCoding hp
  · exact h.statusOut

theorem acceptOut_ep0 (h : MachineInv s) (pid : Pid) {data : List Byte} (hl : data.length ≤ 64) :
    MachineInv (acceptOut .ep0 .ep0rx Machine.ep0OutComplete pid data s) := by
  have hlanded : MachineInv (((s.memWrite .ep0rx 0 data).setRxLen .ep0 data.length).respond .ack) :=
    ⟨wf_write (by simpa [ramSize] using hl) h.mem, { h.ring with }, { h.len with rx0 := hl }, { h.power with },
      { h.endpoint with }, { h.written.write (sp := .ep0rx) rfl 0 data with }⟩
  unfold acceptOut
  simp only [advance, autoTog, Bool.false_eq_true, if_false, ite_self]
  exact hlanded.ep0OutComplete _

end MachineInv
end Sys2Proof.Machine
end

section
/-! PROOFS, family 10: the Setup step keeps the invariant, and so does every step (O51). A Setup step is taken apart into its
acceptance, its handler and its response, between which `SetupInv` holds. -/

namespace Sys2Proof.Machine
open Sys2Proof

/-- What holds within a Setup step, after the packet has been accepted and before the response has been applied: the machine's
invariant in RUN but for its clause about EP0 IN, whose mode the response writes. -/
structure SetupInv (s : State) : Prop where
  run : s.pwr.state = .run
  mem : s.mem.wf s.par = true
  ring : RingInv s
  len : LengthInv s
  awake : s.sess.suspended = false
  unarmed : s.pwr.wakeArm = .none
  ep1 : s.ep1.tx.mode ≠ .ack
  ep2 : s.ep2.tx.mode = .ack → s.tx.busy = true ∧ 1 ≤ s.ep2.txLen
  written : WrittenInv s

namespace SetupInv
variable {s : State}

/-- The packet lands in EP0RX and the cursor is emptied (R79). -/
theorem acceptSetup (h : MachineInv s) (hp : s.pwr.state = .run) {data : List Byte} (hl : data.length ≤ 64) :
    SetupInv (acceptSetup data s) where
  run := hp
  mem := wf_write (by simpa [ramSize] using hl) h.mem
  ring := { h.ring with }
  len := { h.len with rx0 := hl, cursor := Nat.zero_le _ }
  awake := Bool.eq_false_iff.2 fun hsusp => by simpa [hp] using h.power.suspended.1 hsusp
  unarmed := h.power.unarmed (by simp [hp])
  ep1 := h.endpoint.ep1
  ep2 := h.endpoint.ep2
  written := { h.written.write (sp := .ep0rx) rfl 0 data with }

theorem prepared (h : MachineInv s) (hp : s.pwr.state = .run) (r : SetupRequest) : SetupInv (prepared r s) :=
  have ha := SetupInv.acceptSetup h hp (data := packetBytes r) (by simp)
  { ha with ring := { ha.ring with }, len := { ha.len with }, written := { ha.written with } }

/-- The invariant again, where the response has fixed EP0 IN's mode. -/
theorem machineInv (h : SetupInv s) (hm : s.ctl.pendReq = 0xFF → s.ep0.tx.mode ≠ .ack) : MachineInv s where
  mem := h.mem
  ring := h.ring
  len := h.len
  power := ⟨by simp [h.run], fun _ => h.unarmed, by simp [h.run, h.awake], by simp [h.run]⟩
  endpoint := ⟨h.ep1, h.ep2, hm⟩
  written := h.written

/-! The responses (R81, R82, R83). -/

theorem setupFail (h : SetupInv s) (k : FailKind) : MachineInv (setupFail k s) :=
  machineInv { h with ring := { h.ring with }, len := { h.len with }, written := { h.written with } } fun _ => nofun

theorem setupOk (h : SetupInv s) (hq : s.ctl.pendReq ≠ 0xFF) {n : Nat} (hn : n ≤ 64) (hk : knownBelow .ep0tx n s) (g : Stage) :
    MachineInv (setupOk n g s) :=
  machineInv { h with
    ring := { h.ring with }
    len := { h.len with tx0 := hn }
    written := { h.written with ep0 := hk } } fun hff => absurd hff hq

/-- Only the sleep request, code 3, enters the suspend sequence from a Setup step (R92, R121). -/
theorem suspEnter (h : SetupInv s) (hq : s.ctl.pendReq = 0x03) : MachineInv (suspEnter .feature s) where
  mem := h.mem
  ring := { h.ring with }
  len := { h.len with }
  power := ⟨nofun, fun _ => h.unarmed, by simp, fun _ _ => hq⟩
  endpoint := ⟨h.ep1, h.ep2, fun hff => by simp [hq] at hff⟩
  written := { h.written with }

/-- The request that leaves for the bootloader (R103). -/
theorem exited (h : SetupInv s) (hq : s.ctl.pendReq ≠ 0xFF) :
    MachineInv { s.emit .bootloaderJump with pwr := { s.pwr with state := .exited } } where
  mem := h.mem
  ring := { h.ring with }
  len := { h.len with }
  power := ⟨nofun, fun _ => h.unarmed, by simp [h.awake], by simp⟩
  endpoint := ⟨h.ep1, h.ep2, fun hff => absurd hff hq⟩
  written := { h.written with }

/-! What the handlers write. -/

theorem memWrite_ep0tx (h : SetupInv s) {bs : List Byte} (hl : bs.length ≤ 64) : SetupInv (s.memWrite .ep0tx 0 bs) :=
  { h with
    mem := wf_write (by simpa [ramSize] using hl) h.mem
    ring := { h.ring with }
    len := { h.len with }
    written := { h.written.write (sp := .ep0tx) rfl 0 bs with } }

/-- An IN half that ACKs after a write of a mode other than ACK is not the half that was written. -/
theorem mode_ack_of_setHalf {n n' : EpNum} {d : Dir} {m : Mode} {p : Pid} (hm : d = .tx → m ≠ .ack)
    (hack : ((s.setHalf n d ⟨m, p⟩).half n' .tx).mode = .ack) : (s.half n' .tx).mode = .ack := by
  by_cases he : (n', Dir.tx) = (n, d)
  · cases he
    rw [half_setHalf_same] at hack
    exact absurd hack (hm rfl)
  · rwa [half_setHalf_other _ _ he] at hack

theorem setHalf (h : SetupInv s) (n : EpNum) {d : Dir} {m : Mode} (hm : d = .tx → m ≠ .ack) (p : Pid) :
    SetupInv (s.setHalf n d ⟨m, p⟩) := by
  have h1 : (s.setHalf n d ⟨m, p⟩).ep1.tx.mode ≠ .ack := fun ha => h.ep1 (mode_ack_of_setHalf (n' := .ep1) hm ha)
  have h2 (ha : (s.setHalf n d ⟨m, p⟩).ep2.tx.mode = .ack) := h.ep2 (mode_ack_of_setHalf (n' := .ep2) hm ha)
  cases n <;> cases d <;>
    exact ⟨h.run, h.mem, { h.ring with }, { h.len with }, h.awake, h.unarmed, h1, h2, { h.written with }⟩

theorem session (h : SetupInv s) (ss : Sess) (hss : ss.suspended = false) : SetupInv { s with sess := ss } :=
  { h with ring := { h.ring with }, len := { h.len with }, awake := hss, written := { h.written with } }

theorem cursorOpen (h : SetupInv s) (r : SetupRequest) (src : CursorSrc) : SetupInv (cursorOpen r src (tableLen src s) s) :=
  { h with
    ring := { h.ring with }
    len := { h.len with cursor := (Nat.zero_add _).trans_le (Nat.min_le_right _ _) }
    written := { h.written with } }

theorem cursorLoad (h : SetupInv s) : SetupInv (cursorLoad s) :=
  have hbytes := cursorBytes_cursorLen_length h.len.cursor
  have hcursor := (cursor_off_add_remaining s).trans_le h.len.cursor
  { h with
    mem := wf_write (by simpa [hbytes, ramSize] using cursorLen_le_maxPkt s) h.mem
    ring := { h.ring with }
    len := { h.len with cursor := hcursor.trans_eq (tableLen_congr (by rfl) _).symm }
    written := { h.written.write (sp := .ep0tx) rfl 0 (cursorBytes (cursorLen s) s) with } }

/-- A cursor request's first packet is armed with the bytes just loaded (R84, R85). -/
theorem startCursor (h : SetupInv s) (hq : s.ctl.pendReq ≠ 0xFF) (r : SetupRequest) (src : CursorSrc) :
    MachineInv (finishSetup r (startCursor r src s)) :=
  have ho := h.cursorOpen r src
  ho.cursorLoad.setupOk hq (cursorLen_le_maxPkt _)
    (knownBelow_of_written rfl rfl (cursorBytes_cursorLen_length ho.len.cursor).ge) _

end SetupInv

/-! ### Requests -/

/-- The pending request identifier 0xFF names no request: a row with that code fails (R99, R104). -/
theorem exec_request_of_noRequest {i : Instr} {a : DevAddr} {r : SetupRequest} (hr : requestOf i = some (a, r))
    (hs : ∀ b d, i ≠ .setup b d) (hw : WellFormed i = true) (hff : r.bRequest = 0xFF) (s : State) :
    exec i s = setupGate (requestTransaction a r handleUnsupported) s := by
  cases i
  case setup b d => exact absurd rfl (hs b d)
  all_goals cases hr
  case stdUnsupported => rfl
  case nonstdUnsupported => rfl
  all_goals simp [WellFormed, WellFormed.std, WellFormed.nonstd, hff] at hw

/-- A well-formed operation that carries a request is the request's own row: SETUP is for the other lengths. -/
theorem ne_setup_of_requestOf {i : Instr} {p : DevAddr × SetupRequest} (hr : requestOf i = some p) (hw : WellFormed i = true) :
    ∀ b d, i ≠ .setup b d := by
  rintro b d rfl
  simp only [WellFormed, Bool.and_eq_true, bne_iff_ne] at hw
  simp [requestOf, packetOf_eq_none.2 hw.2] at hr

/-- Every result of a handler, applied, meets the invariant; a request with code 0xFF must have failed. -/
theorem SetupInv.finishSetup {i : Instr} {r : SetupRequest} {s : State} {p : SetupResult × State} (h : SetupInv s)
    (hpend : s.ctl.pendReq = r.bRequest) (hw : WellFormed i = true) (hres : RequestResult i r s p)
    (hff : r.bRequest = 0xFF → ∃ k, p = (.fail k, s)) : MachineInv (finishSetup r p) := by
  by_cases hq : r.bRequest = 0xFF
  · obtain ⟨k, rfl⟩ := hff hq
    exact h.setupFail k
  · rw [← hpend] at hq
    cases hres with
    | failed k => exact h.setupFail k
    | accepted => exact h.setupOk hq (Nat.zero_le _) nofun _
    | answered n bs hn hb =>
      exact (h.memWrite_ep0tx (by omega)).setupOk hq (by omega) (knownBelow_of_written rfl rfl hn) _
    | feature n d m hm hx hi => exact (h.setHalf n hm _).setupOk (by simpa using hq) (Nat.zero_le _) nofun _
    | address hi =>
      exact (h.session { s.sess with pendAddr := r.wValueL.setWidth 7 } h.awake).setupOk hq (Nat.zero_le _) nofun _
    | configuration v hi => exact (h.session { s.sess with cfg := v } h.awake).setupOk hq (Nat.zero_le _) nofun _
    | cursor src sp hsp ht => exact h.startCursor hq r src
    | sleep hi =>
      obtain ⟨a, rfl⟩ := hi
      exact h.suspEnter (hpend.trans (setFeatureDevice_fields hw).1)
    | exit hi => exact h.exited hq

/-- A request row's next state in RUN. -/
theorem MachineInv.request {i : Instr} {a : DevAddr} {r : SetupRequest} {s t : State} (h : MachineInv s)
    (hp : s.pwr.state = .run) (hr : requestOf i = some (a, r)) (hw : WellFormed i = true) (hx : exec i s = .next t) :
    MachineInv t := by
  have hs := ne_setup_of_requestOf hr hw
  obtain ⟨f, hf, hres, hff⟩ : ∃ f : Handler, exec i s = setupGate (requestTransaction a r f) s ∧
      (∀ u, RequestResult i r u (f r u)) ∧ (r.bRequest = 0xFF → ∀ u, ∃ k, f r u = (.fail k, u)) := by
    by_cases hff : r.bRequest = 0xFF
    · exact ⟨handleUnsupported, exec_request_of_noRequest hr hs hw hff s, fun u => .failed _, fun _ u => ⟨_, rfl⟩⟩
    · obtain ⟨f, hf, hres⟩ := exec_request hr hs
      exact ⟨f, hf s, hres, fun h' => absurd h' hff⟩
  rw [hf] at hx
  obtain ⟨-, ⟨-, rfl⟩ | ⟨hhalt, -⟩⟩ := setupGate_next hx
  · unfold requestTransaction
    split
    · exact h.emit _
    · exact (SetupInv.prepared h hp r).finishSetup rfl hw (hres _) fun hq => hff hq _
  · simp [hp] at hhalt

/-! ### Every step -/

theorem machineInv_exec {i : Instr} {s t : State} (h : MachineInv s) (hw : WellFormed i = true) (hx : exec i s = .next t) :
    MachineInv t := by
  cases exec_next hx with
  | output e => exact h.emit e
  | same => exact h
  | raised k hp => exact h.raise k
  | request a r f hp hr hf => exact h.request hp hr hw hx
  | packet a r hp hi => exact absurd hi (ne_setup_of_requestOf (p := (a, r)) (by simp [hi, requestOf]) hw _ _)
  | malformed a data hp hi hl h8 => exact (SetupInv.acceptSetup h hp hl).setupFail _
  | in0 a hp hi hm => exact (h.emit _).ep0InComplete
  | in1 a hp hi hm => exact absurd hm h.endpoint.ep1
  | in2 a hp hi hm => exact h.ep2InComplete
  | out0 a pid data hp hi hl hm => exact h.acceptOut_ep0 pid hl
  | out2 a pid data hp hi hl hm => exact h.acceptOut_ep2 pid hl
  | reset hp hi => exact h.busResetNow hp
  | suspend hp hi => exact h.suspEnter_bus hp
  | tick hp hi => exact h.rxStep.txStep
  | enqueue b hp hi hc => exact h.enqueue b hc
  | halted hp hi => exact h.haltNow hp
  | wakeToken hp hi => exact (h.wake hp .usb).emit _
  | wakeReset hp hi =>
    refine (h.wake hp .usb).busResetNow ?_
    rw [wake_all (h.power.armed hp), wakeNow_eq]
  | wakeEvent src hp hi => exact h.wake hp src

/-- Settles O51: a step runs a well-formed operation, and each keeps the invariant. -/
theorem everyStepKeepsTheInvariant : Obligations.EveryStepKeepsTheInvariant := by
  intro s t h hx
  obtain ⟨i, rest, hw, hx⟩ := step_next hx
  exact machineInv_exec (h.withInput rest) hw hx

end Sys2Proof.Machine
end

section
/-! PROOFS, family 10: which operation may change what: toggles (O53), the session and the line coding (O55), the cursor (O56); and
the step in which R33's sentence about the receive counter fails (O52). -/

namespace Sys2Proof.Machine
open Sys2Proof

/-! ### The receive counter and the packet length -/

/-- A half-delivered packet whose endpoint CLEAR_FEATURE(0x02) has reopened (R91, R151); next on the interface is an OUT with PID
DATA1, which the half does not expect, and two bytes. -/
def reopenedHalf (p : Params) : State := { State.powerOn p with
  ep2 := ⟨.nakReset, .ackReset, 0, 1⟩, rx := ⟨1, 0⟩, mem := { Memory.unwritten with ep2rx := [(0, 0x41)] },
  input := [0x02, 0x00, 0x01, 0x02, 0x42, 0x43] }

theorem machineInv_reopenedHalf (p : Params) : MachineInv (reopenedHalf p) :=
  have h := machineInv_powerOn p
  { mem := rfl
    ring := { h.ring with }
    len := { h.len with rx2 := show 1 ≤ 64 by decide, rxBytes := show 0 + 1 ≤ 64 by decide }
    power := { h.power with }
    endpoint := ⟨nofun, nofun, fun _ => nofun⟩
    written := ⟨nofun, rfl, nofun, fun _ x hx => (Nat.lt_one_iff.1 hx) ▸ rfl, nofun⟩ }

/-- The packet is acknowledged and its length recorded (R75), and the counters keep the packet before it (R111). -/
theorem step_reopenedHalf (p : Params) :
    ∃ t, step (reopenedHalf p) = .next t ∧ t.rx = ⟨1, 0⟩ ∧ t.ep2.rxLen = 2 := ⟨_, rfl, rfl, rfl⟩

/-- Refutes O52: after the out-of-sync OUT, one byte is still to deliver from offset 0 and the recorded length is two. -/
theorem not_rxCountAddsUpToThePacketLength : ¬ Obligations.RxCountAddsUpToThePacketLength := by
  intro h
  obtain ⟨t, hx, hrx, hlen⟩ := step_reopenedHalf Config.params
  have hsum := h _ t (machineInv_reopenedHalf Config.params) (fun _ => rfl) hx
  simp [hrx, hlen] at hsum

/-! ### What a request may change -/

theorem opClass_of_requestOf {i : Instr} {p : DevAddr × SetupRequest} (h : requestOf i = some p) : opClass i = .setup := by
  cases i <;> first | rfl | cases h

/-- A handler changes a half only where an endpoint feature request names it (R91, R93). -/
theorem RequestResult.feature_of_half_ne {i : Instr} {r : SetupRequest} {s : State} {p : SetupResult × State} {n : EpNum} {d : Dir}
    (h : RequestResult i r s p) (hne : p.2.half n d ≠ s.half n d) :
    halfOfIndex r.wIndexL = some (n, d) ∧ ∃ a, i = .clearFeatureEndpoint a r ∨ i = .setFeatureEndpoint a r := by
  cases h with
  | feature n' d' m hm hx hi =>
    refine ⟨?_, hi⟩
    by_cases he : (n, d) = (n', d')
    · rw [he, hx]
    · exact absurd (half_setHalf_other _ _ he) hne
  | _ => exact absurd rfl hne

/-- A well-formed endpoint feature request on the index of a half is a feature request on that half (R57, R60, R89). -/
theorem featureOn_of_wellFormed {i : Instr} {a : DevAddr} {r : SetupRequest} {n : EpNum} {d : Dir} (hw : WellFormed i = true)
    (hi : i = .clearFeatureEndpoint a r ∨ i = .setFeatureEndpoint a r) (hx : halfOfIndex r.wIndexL = some (n, d)) :
    featureOn i n d = true := by
  rcases hi with rfl | rfl <;>
  · simp only [WellFormed, WellFormed.std, WellFormed.endpointFeature, Bool.and_eq_true, beq_iff_eq] at hw
    obtain ⟨⟨hstd, hcode⟩, hrecip, -⟩ := hw
    simp [featureOn, requestOf, namesHalf, hstd, hcode, hrecip, hx]

/-! ### Toggles -/

/-- The halves of EP1, EP2 and EP3 stand in those endpoints' own registers. -/
theorem half_congr {s t : State} (h1 : t.ep1 = s.ep1) (h2 : t.ep2 = s.ep2) (h3 : t.ep3 = s.ep3) {n : EpNum} (hn : n ≠ .ep0)
    (d : Dir) : t.half n d = s.half n d := by
  cases n with
  | ep0 => exact absurd rfl hn
  | ep1 => cases d <;> simp only [State.half, h1]
  | ep2 => cases d <;> simp only [State.half, h2]
  | ep3 => cases d <;> simp only [State.half, h3]

/-- The response of the Setup step writes no half but EP0's (R82, R83). -/
theorem half_finishSetup {n : EpNum} (hn : n ≠ .ep0) (d : Dir) (r : SetupRequest) (p : SetupResult × State) :
    (finishSetup r p).half n d = p.2.half n d :=
  half_congr (finishSetup_ep1 r p) (finishSetup_ep2 r p) (finishSetup_ep3 r p) hn d

/-- An EP0 IN completion flips the IN toggle where it continues a cursor, and no other toggle (R105). -/
theorem ep0InComplete_flips {s : State} {n : EpNum} {d : Dir} (hne : ((ep0InComplete s).half n d).tog ≠ (s.half n d).tog) :
    n = .ep0 ∧ d = .tx ∧ (s.ctl.pendReq = 0x06 ∨ s.ctl.pendReq = 0x21) := by
  rw [ep0InComplete_eq] at hne
  split_ifs at hne with hcur haddr
  · by_cases he : (n, d) = (.ep0, .tx)
    · cases he
      exact ⟨rfl, rfl, hcur⟩
    · refine absurd ?_ hne
      cases n <;> cases d <;> first | rfl | exact absurd rfl he
  · exact absurd (by cases n <;> cases d <;> rfl) hne
  · exact absurd (by cases n <;> cases d <;> rfl) hne

/-- A completed IN to EP1 writes its IN half alone (R76, R109). -/
theorem half_ep1InComplete {s : State} {n : EpNum} {d : Dir} (he : (n, d) ≠ (.ep1, .tx)) :
    (ep1InComplete (advance .ep1 .tx (sent .ep1 .ep1tx s))).half n d = s.half n d := by
  cases n <;> cases d <;> first | rfl | exact absurd rfl he

/-- A completed IN to EP2 writes its IN half alone (R76, R110). -/
theorem half_ep2InComplete {s : State} {n : EpNum} {d : Dir} (he : (n, d) ≠ (.ep2, .tx)) :
    (ep2InComplete (advance .ep2 .tx (sent .ep2 .ep2tx s))).half n d = s.half n d := by
  cases n <;> cases d <;> first | rfl | exact absurd rfl he

/-- An accepted OUT to EP0 keeps every toggle (R76, R106, R107). -/
theorem tog_acceptOut_ep0 (pid : Pid) (data : List Byte) (s : State) (n : EpNum) (d : Dir) :
    ((acceptOut .ep0 .ep0rx ep0OutComplete pid data s).half n d).tog = (s.half n d).tog := by
  obtain ⟨u, hu, -, -, h1, h2, h3, -, -, -, -, -, htx, hrx, -⟩ := acceptOut_ep0_frame pid data s
  cases n <;> cases d <;> simp [State.half, hu, h1, h2, h3, htx, hrx]

/-- An accepted OUT to EP2 flips the OUT toggle where the PID is the expected one, and no other toggle (R75, R76). -/
theorem acceptOut_ep2_flips {pid : Pid} {data : List Byte} {s : State} {n : EpNum} {d : Dir}
    (hne : ((acceptOut .ep2 .ep2rx ep2OutComplete pid data s).half n d).tog ≠ (s.half n d).tog) :
    n = .ep2 ∧ d = .rx ∧ pid = (s.half n d).tog := by
  rw [acceptOut_ep2_eq] at hne
  split at hne
  · rename_i hpid
    by_cases he : (n, d) = (.ep2, .rx)
    · cases he
      exact ⟨rfl, rfl, hpid⟩
    · refine absurd ?_ hne
      cases n <;> cases d <;> first | rfl | exact absurd rfl he
  · exact absurd (by cases n <;> cases d <;> rfl) hne

/-- A tick writes modes and no toggle (R112, R115). -/
theorem tog_tick (s : State) (n : EpNum) (d : Dir) : ((txStep (rxStep s)).half n d).tog = (s.half n d).tog := by
  have htx (u : State) : ((txStep u).half n d).tog = (u.half n d).tog := by
    rw [txStep_eq]
    split_ifs <;> cases n <;> cases d <;> rfl
  have hrx : ((rxStep s).half n d).tog = (s.half n d).tog := by
    rw [rxStep_eq]
    split_ifs <;> cases n <;> cases d <;> rfl
  rw [htx, hrx]

/-- A wake writes halves only by the deferred SetupOK(0) of the sleep request (R123). -/
theorem wake_writes_ep0 {src : WakeSrc} {s : State} {n : EpNum} {d : Dir} (hne : (wake src s).half n d ≠ s.half n d) :
    n = .ep0 ∧ s.pwr.origin = .feature := by
  refine ⟨by_contra fun hn => hne (half_congr (wake_ep1 src s) (wake_ep2 src s) (wake_ep3 src s) hn d), ?_⟩
  by_contra ho
  rcases wake_cases src s with h | ⟨h, -⟩
  · exact hne (by rw [h])
  · rw [h, wakeNow_eq] at hne
    simp only [ho, if_false] at hne
    exact hne rfl

/-- Settles O53: the flip points of each way to a next state. -/
theorem togglesChangeOnlyAtFlipPoints : Obligations.TogglesChangeOnlyAtFlipPoints := by
  intro i s t n d hw hx hne
  have hne' : t.half n d ≠ s.half n d := fun he => hne (by rw [he])
  cases exec_next hx with
  | request a r f hp hr hf =>
    by_cases hn : n = .ep0
    · exact .inl ⟨hn, opClass_of_requestOf hr⟩
    · rw [acceptedRequest_eq, half_finishSetup hn] at hne'
      obtain ⟨hidx, b, hi⟩ := (hf _).feature_of_half_ne hne'
      exact .inr (.inr (.inr (.inl (featureOn_of_wellFormed hw hi hidx))))
  | packet a r hp hi => exact absurd hi (ne_setup_of_requestOf (p := (a, r)) (by simp [hi, requestOf]) hw _ _)
  | malformed a data hp hi hl h8 =>
    by_cases hn : n = .ep0
    · exact .inl ⟨hn, by rw [hi]; rfl⟩
    · exact absurd (half_congr (by rfl) (by rfl) (by rfl) hn d) hne'
  | in0 a hp hi hm =>
    obtain ⟨hn, hd, hcur⟩ := ep0InComplete_flips (s := sent .ep0 .ep0tx s) hne
    exact .inr (.inr (.inl ⟨hn, hd, ⟨a, hi⟩, hcur⟩))
  | in1 a hp hi hm =>
    by_cases he : (n, d) = (.ep1, .tx)
    · cases he
      exact .inr (.inr (.inr (.inr (.inl ⟨rfl, rfl, a, hi⟩))))
    · exact absurd (half_ep1InComplete he) hne'
  | in2 a hp hi hm =>
    by_cases he : (n, d) = (.ep2, .tx)
    · cases he
      exact .inr (.inr (.inr (.inr (.inr (.inl ⟨rfl, rfl, a, hi⟩)))))
    · exact absurd (half_ep2InComplete he) hne'
  | out0 a pid data hp hi hl hm => exact absurd (tog_acceptOut_ep0 pid data s n d) hne
  | out2 a pid data hp hi hl hm =>
    obtain ⟨hn, hd, hpid⟩ := acceptOut_ep2_flips hne
    exact .inr (.inr (.inr (.inr (.inr (.inr (.inl ⟨hn, hd, a, data, hpid ▸ hi⟩))))))
  | tick hp hi => exact absurd (tog_tick s n d) hne
  | reset hp hi => exact .inr (.inr (.inr (.inr (.inr (.inr (.inr hi))))))
  | wakeReset hp hi => exact .inr (.inr (.inr (.inr (.inr (.inr (.inr hi))))))
  | wakeToken hp hi =>
    obtain ⟨hn, ho⟩ := wake_writes_ep0 hne'
    exact .inr (.inl ⟨hn, hp, ho⟩)
  | wakeEvent src hp hi =>
    obtain ⟨hn, ho⟩ := wake_writes_ep0 hne'
    exact .inr (.inl ⟨hn, hp, ho⟩)
  | _ => exact absurd rfl hne

/-! ### The session, the line coding and the parameters -/

/-- The ways in which a well-formed operation `i` may take the session of `s` to that of `t` (R21, R92, R95, R98, R105, R121, R123,
R144). -/
inductive SessionNext (i : Instr) (s t : State) : Prop where
  | kept (h : t.sess = s.sess)
  | reset (hi : i = .busReset) (h : t.sess = ⟨0, 0, 0, false⟩)
  | latched (a : DevAddr) (hi : i = .inEp0 a true) (hp : s.ctl.pendReq = 0x05)
      (h : t.sess = { s.sess with addr := s.sess.pendAddr })
  | staged (a : DevAddr) (r : SetupRequest) (hi : i = .setAddress a r)
      (h : t.sess = { s.sess with pendAddr := r.wValueL.setWidth 7 })
  | configured (a : DevAddr) (r : SetupRequest) (v : BitVec 1) (hi : i = .setConfiguration a r)
      (h : t.sess = { s.sess with cfg := v })
  | asleep (hi : i = .busSuspend ∨ ∃ a r, i = .setFeatureDevice a r) (hp : s.pwr.state = .run) (ht : t.pwr.state = .drainWait)
      (h : t.sess = { s.sess with suspended := true })
  | awake (hi : opClass i ∈ [.setup, .token, .resume, .rxd0, .rxd1]) (hp : s.pwr.state = .halt) (ht : t.pwr.state = .run)
      (h : t.sess = { s.sess with suspended := false })

theorem RequestResult.sessionNext {i : Instr} {r : SetupRequest} {s : State} {p : SetupResult × State}
    (h : RequestResult i r (prepared r s) p) (hp : s.pwr.state = .run) : SessionNext i s (finishSetup r p) := by
  cases h with
  | feature n d m hm hx hi => exact .kept (by simp [finishSetup, prepared])
  | address hi =>
    obtain ⟨a, hi⟩ := hi
    exact .staged a r hi rfl
  | configuration v hi =>
    obtain ⟨a, hi⟩ := hi
    exact .configured a r v hi rfl
  | sleep hi =>
    obtain ⟨a, hi⟩ := hi
    exact .asleep (.inr ⟨a, r, hi⟩) hp rfl rfl
  | _ => exact .kept rfl

/-- A wake changes nothing, or ends in RUN with `suspended` false and the rest of the session as before (R123). -/
theorem wake_sessionNext {i : Instr} {s : State} (src : WakeSrc) (hp : s.pwr.state = .halt)
    (hi : opClass i ∈ [.setup, .token, .resume, .rxd0, .rxd1]) : SessionNext i s (wake src s) := by
  rcases wake_cases src s with h | ⟨h, hrun, hsusp⟩
  · exact .kept (by rw [h])
  · rw [h]
    exact .awake hi hp hrun (by rw [wakeNow_eq])

theorem SessionNext.emit {i : Instr} {s t : State} (h : SessionNext i s t) (e : Event) : SessionNext i s (t.emit e) := by
  cases h with
  | kept h => exact .kept h
  | reset hi h => exact .reset hi h
  | latched a hi hp h => exact .latched a hi hp h
  | staged a r hi h => exact .staged a r hi h
  | configured a r v hi h => exact .configured a r v hi h
  | asleep hi hp ht h => exact .asleep hi hp ht h
  | awake hi hp ht h => exact .awake hi hp ht h

/-- The session of a next state. -/
theorem sessionNext_of_exec {i : Instr} {s t : State} (hw : WellFormed i = true) (hx : exec i s = .next t) :
    SessionNext i s t := by
  cases exec_next hx with
  | request a r f hp hr hf => exact (hf _).sessionNext hp
  | packet a r hp hi => exact absurd hi (ne_setup_of_requestOf (p := (a, r)) (by simp [hi, requestOf]) hw _ _)
  | in0 a hp hi hm =>
    rw [ep0InComplete_eq]
    split_ifs with hcur haddr
    · exact .kept rfl
    · exact .latched a hi haddr rfl
    · exact .kept rfl
  | out0 a pid data hp hi hl hm =>
    obtain ⟨u, rfl, -, hsess, -⟩ := acceptOut_ep0_frame pid data s
    exact .kept hsess
  | out2 a pid data hp hi hl hm =>
    rw [acceptOut_ep2_eq]
    split_ifs <;> exact .kept rfl
  | tick hp hi =>
    obtain ⟨-, -, htx, -⟩ := txStep_frame (rxStep s)
    obtain ⟨-, -, hrx, -⟩ := rxStep_frame s
    exact .kept (htx.trans hrx)
  | reset hp hi => exact .reset hi rfl
  | suspend hp hi => exact .asleep (.inl hi) hp rfl rfl
  | wakeToken hp hi => exact (wake_sessionNext .usb hp (by rcases hi with h | h <;> simp [h])).emit _
  | wakeReset hp hi => exact .reset hi rfl
  | wakeEvent src hp hi => exact wake_sessionNext src hp (by rcases hi with rfl | rfl | rfl <;> simp [opClass])
  | _ => exact .kept rfl

/-- A handler writes neither the parameters nor the line coding. -/
theorem RequestResult.par_lc {i : Instr} {r : SetupRequest} {s : State} {p : SetupResult × State} (h : RequestResult i r s p) :
    p.2.par = s.par ∧ p.2.lc = s.lc := by
  cases h with
  | feature n d m hm hx hi => exact ⟨setHalf_par n d _ s, setHalf_lc n d _ s⟩
  | _ => exact ⟨rfl, rfl⟩

/-- No operation writes the parameters, and only the data stage of SET_LINE_CODING writes the line coding (R34, R41, R106). -/
theorem par_lc_of_exec {i : Instr} {s t : State} (hw : WellFormed i = true) (hx : exec i s = .next t) :
    t.par = s.par ∧ (t.lc = s.lc ∨ (∃ a pid data, i = .outEp0 a pid data) ∧ s.ctl.pendReq = 0x20) := by
  cases exec_next hx with
  | request a r f hp hr hf =>
    obtain ⟨hpar, hlc⟩ := (hf (prepared r s)).par_lc
    rw [acceptedRequest_eq, finishSetup_par, finishSetup_lc]
    exact ⟨hpar, .inl hlc⟩
  | packet a r hp hi => exact absurd hi (ne_setup_of_requestOf (p := (a, r)) (by simp [hi, requestOf]) hw _ _)
  | in0 a hp hi hm =>
    rw [ep0InComplete_eq]
    split_ifs <;> exact ⟨rfl, .inl rfl⟩
  | out0 a pid data hp hi hl hm =>
    obtain ⟨u, rfl, hpar, -, -, -, -, -, -, -, -, -, -, -, -, hlc, -⟩ := acceptOut_ep0_frame pid data s
    exact ⟨hpar, hlc.imp_right fun hq => ⟨⟨a, pid, data, hi⟩, hq⟩⟩
  | out2 a pid data hp hi hl hm =>
    rw [acceptOut_ep2_eq]
    split_ifs <;> exact ⟨rfl, .inl rfl⟩
  | tick hp hi =>
    rw [txStep_eq, rxStep_eq]
    split_ifs <;> exact ⟨rfl, .inl rfl⟩
  | wakeToken hp hi => exact ⟨wake_par .usb s, .inl (wake_lc .usb s)⟩
  | wakeReset hp hi => exact ⟨wake_par .usb s, .inl (wake_lc .usb s)⟩
  | wakeEvent src hp hi => exact ⟨wake_par src s, .inl (wake_lc src s)⟩
  | _ => exact ⟨rfl, .inl rfl⟩

/-- Settles O55: each field of the session read off the ways of `SessionNext`. -/
theorem sessionAndTablesHaveTheirOnlyWriters : Obligations.SessionAndTablesHaveTheirOnlyWriters := by
  intro i s t hw hx
  obtain ⟨hpar, hlc⟩ := par_lc_of_exec hw hx
  have hlc' (hne : t.lc ≠ s.lc) := hlc.resolve_left hne
  cases sessionNext_of_exec hw hx with
  | kept h => exact ⟨hpar, by simp [h], by simp [h], by simp [h], by simp [h], hlc'⟩
  | reset hi h =>
    exact ⟨hpar, fun _ => .inl hi, fun _ => .inl hi, fun _ => .inl hi, fun _ => .inr (.inr ⟨by rw [h], hi⟩), hlc'⟩
  | latched a hi hp h =>
    exact ⟨hpar, fun _ => .inr ⟨⟨a, hi⟩, hp, by rw [h]⟩, by simp [h], by simp [h], by simp [h], hlc'⟩
  | staged a r hi h => exact ⟨hpar, by simp [h], fun _ => .inr ⟨a, r, hi, by rw [h]⟩, by simp [h], by simp [h], hlc'⟩
  | configured a r v hi h => exact ⟨hpar, by simp [h], by simp [h], fun _ => .inr ⟨a, r, hi⟩, by simp [h], hlc'⟩
  | asleep hi hp ht h =>
    exact ⟨hpar, by simp [h], by simp [h], by simp [h], fun _ => .inl ⟨by rw [h], hp, ht, hi⟩, hlc'⟩
  | awake hi hp ht h =>
    exact ⟨hpar, by simp [h], by simp [h], by simp [h], fun _ => .inr (.inl ⟨by rw [h], hp, ht, hi⟩), hlc'⟩

/-! ### The cursor -/

/-- Between SETUPs the cursor is kept, or its next packet is taken from it (R85, R105). -/
theorem cursor_of_exec {i : Instr} {s t : State} (hx : exec i s = .next t) (hsetup : opClass i ≠ .setup) (hreset : i ≠ .busReset) :
    t.ctl.cur = s.ctl.cur ∨
      t.ctl.cur = ⟨s.ctl.cur.src, s.ctl.cur.off + cursorLen s, s.ctl.cur.remaining - cursorLen s⟩ := by
  cases exec_next hx with
  | request a r f hp hr hf => exact absurd (opClass_of_requestOf hr) hsetup
  | packet a r hp hi => exact absurd (by rw [hi]; rfl) hsetup
  | malformed a data hp hi hl h8 => exact absurd (by rw [hi]; rfl) hsetup
  | in0 a hp hi hm =>
    rw [ep0InComplete_eq]
    split_ifs
    · exact .inr rfl
    · exact .inl rfl
    · exact .inl rfl
  | out0 a pid data hp hi hl hm =>
    obtain ⟨u, rfl, -, -, -, -, -, -, -, -, hcur, -⟩ := acceptOut_ep0_frame pid data s
    exact .inl hcur
  | out2 a pid data hp hi hl hm =>
    rw [acceptOut_ep2_eq]
    split_ifs <;> exact .inl rfl
  | tick hp hi =>
    rw [txStep_eq, rxStep_eq]
    split_ifs <;> exact .inl rfl
  | reset hp hi => exact absurd hi hreset
  | wakeToken hp hi => exact .inl (wake_cur .usb s)
  | wakeReset hp hi => exact absurd hi hreset
  | wakeEvent src hp hi => exact .inl (wake_cur src s)
  | _ => exact .inl rfl

/-- Settles O56: what the cursor's next packet takes from `remaining` it adds to `off`. -/
theorem cursorOnlyAdvancesBetweenSetups : Obligations.CursorOnlyAdvancesBetweenSetups := by
  intro i s t hx hsetup hreset
  rcases cursor_of_exec hx hsetup hreset with h | h
  · simp [h]
  · rw [h]
    exact ⟨rfl, Nat.sub_le _ _, Nat.le_add_right _ _, cursor_off_add_remaining s⟩

end Sys2Proof.Machine
end

section
/-! PROOFS, family 10: the kind of the last FAIL and the stage register are not observed by any operation (O58). -/

namespace Sys2Proof.Machine
open Sys2Proof

/-- `s` with another record of the last FAIL (log entry 8) and another stage (R30): what no operation reads. -/
def relabel (k : Option FailKind) (g : Stage) (s : State) : State := { s with lastFail := k, ctl := { s.ctl with stage := g } }

/-- What an operation does in RUN observes neither. -/
def Blind (run : State → State) : Prop := ∀ k g s, ∃ k' g', run (relabel k g s) = relabel k' g' (run s)

/-- A handler reads neither and writes neither. -/
def BlindHandler (f : Handler) : Prop := ∀ r k g s, f r (relabel k g s) = ((f r s).1, relabel k g (f r s).2)

/-- Two answers that differ at most in what no operation reads. -/
inductive SameAnswer : Result → Result → Prop where
  | next (t : State) (k : Option FailKind) (g : Stage) : SameAnswer (.next t) (.next (relabel k g t))
  | fault (f : Fault) : SameAnswer (.fault f) (.fault f)
  | refused (q : Refusal) : SameAnswer (.refused q) (.refused q)

/-- An operation answers alike whatever stands in the two fields. -/
def BlindOp (op : State → Result) : Prop := ∀ k g s, SameAnswer (op s) (op (relabel k g s))

/-! ### Combining -/

namespace Blind

/-- A function that leaves both fields alone. -/
theorem of_comm {f : State → State} (h : ∀ k g s, f (relabel k g s) = relabel k g (f s)) : Blind f := fun k g s => ⟨k, g, h k g s⟩

theorem comp {f h : State → State} (hf : Blind f) (hh : Blind h) : Blind fun s => f (h s) := by
  intro k g s
  obtain ⟨k1, g1, h1⟩ := hh k g s
  obtain ⟨k2, g2, h2⟩ := hf k1 g1 (h s)
  exact ⟨k2, g2, (congrArg f h1).trans h2⟩

/-- A branch on a condition that reads neither field. -/
theorem ite {c : State → Prop} [DecidablePred c] {f h : State → State} (hc : ∀ k g s, c (relabel k g s) ↔ c s) (hf : Blind f)
    (hh : Blind h) : Blind fun s => if c s then f s else h s := by
  intro k g s
  simp only [hc]
  split
  · exact hf k g s
  · exact hh k g s

/-- The three branches on a mode that is read from neither field. -/
theorem onMode {m : State → Mode} {f h q : State → State} (hm : ∀ k g s, m (relabel k g s) = m s) (hf : Blind f) (hh : Blind h)
    (hq : Blind q) : Blind fun s => match m s with
      | .stall => f s
      | .nak => h s
      | .ack => q s := by
  intro k g s
  simp only [hm]
  cases m s
  · exact hq k g s
  · exact hh k g s
  · exact hf k g s

theorem same : Blind fun s => s := .of_comm fun _ _ _ => rfl

theorem emit (e : State → Event) (he : ∀ k g s, e (relabel k g s) = e s) : Blind fun s => s.emit (e s) :=
  .of_comm fun k g s => by rw [he]; rfl

theorem respond (h : Response) : Blind (State.respond h) := .of_comm fun _ _ _ => rfl

theorem raise (k : Fault) : Blind (State.raise k) := .of_comm fun _ _ _ => rfl

end Blind

/-! ### The gates -/

/-- The fault mark and the power state are not among the two fields. -/
theorem SameAnswer.gate {k : Option FailKind} {g : Stage} {s : State} {run drain halt out run' drain' halt' out' : Result}
    (hr : SameAnswer run run') (hd : SameAnswer drain drain') (hh : SameAnswer halt halt') (ho : SameAnswer out out') :
    SameAnswer
      (unlessFaulted s <| match s.pwr.state with
        | .run => run | .drainWait => drain | .halt => halt | .exited => out)
      (unlessFaulted (relabel k g s) <| match (relabel k g s).pwr.state with
        | .run => run' | .drainWait => drain' | .halt => halt' | .exited => out') := by
  have hf : (relabel k g s).fault = s.fault := rfl
  have hp : (relabel k g s).pwr = s.pwr := rfl
  unfold unlessFaulted
  rw [hf, hp]
  cases s.fault with
  | some f => exact .fault f
  | none =>
    cases s.pwr.state
    · exact hr
    · exact hd
    · exact hh
    · exact ho

theorem Blind.next {f : State → State} (h : Blind f) (k : Option FailKind) (g : Stage) (s : State) :
    SameAnswer (.next (f s)) (.next (f (relabel k g s))) := by
  obtain ⟨k', g', h⟩ := h k g s
  rw [h]
  exact .next _ k' g'

/-- A wake may put the stage at STATUS_IN (R123). -/
theorem blind_wake (src : WakeSrc) : Blind (wake src) := by
  have hnow : Blind wakeNow := by
    intro k g s
    rw [wakeNow_eq, wakeNow_eq]
    by_cases ho : s.pwr.origin = .feature
    · exact ⟨k, .statusIn, by simp [relabel, ho]⟩
    · exact ⟨k, g, by simp [relabel, ho]⟩
  exact .ite (c := fun s => s.pwr.wakeArm.holds src = true) (fun _ _ _ => Iff.rfl) hnow .same

theorem blindOp_setupGate {run : State → State} (h : Blind run) : BlindOp (setupGate run) := fun k g s =>
  .gate (h.next k g s) (.refused _) (((Blind.respond .none).comp (blind_wake .usb)).next k g s) (.refused _)

theorem blindOp_tokenGate {run : State → State} (a : DevAddr) (h : Blind run) : BlindOp (tokenGate a run) := fun k g s =>
  .gate (h.next k g s) ((Blind.respond _).next k g s) (((Blind.respond .none).comp (blind_wake .usb)).next k g s) (.refused _)

theorem blindOp_wakeGate (src : WakeSrc) : BlindOp (wakeGate src) := fun k g s =>
  .gate (Blind.same.next k g s) (Blind.same.next k g s) ((blind_wake src).next k g s) (.refused _)

theorem blindOp_mainGate {run : State → State} (h : Blind run) : BlindOp (mainGate run) := fun k g s =>
  .gate (h.next k g s) (.refused _) (.refused _) (.refused _)

/-! ### The Setup step -/

namespace BlindHandler

theorem ite {c : SetupRequest → State → Prop} [∀ r, DecidablePred (c r)] {f h : Handler}
    (hc : ∀ r k g s, c r (relabel k g s) ↔ c r s) (hf : BlindHandler f) (hh : BlindHandler h) :
    BlindHandler fun r s => if c r s then f r s else h r s := by
  intro r k g s
  simp only [hc]
  split
  · exact hf r k g s
  · exact hh r k g s

theorem unsupported : BlindHandler handleUnsupported := fun _ _ _ _ => rfl

theorem clearFeatureDevice : BlindHandler handleClearFeatureDevice := fun _ _ _ _ => rfl

theorem setFeatureDevice : BlindHandler handleSetFeatureDevice := fun _ _ _ _ => rfl

end BlindHandler

theorem setHalf_relabel (n : EpNum) (d : Dir) (h : Half) (k : Option FailKind) (g : Stage) (s : State) :
    (relabel k g s).setHalf n d h = relabel k g (s.setHalf n d h) := by
  cases n <;> cases d <;> rfl

namespace BlindHandler

theorem endpointFeature (m : Dir → Mode) : BlindHandler (handleEndpointFeature m) := by
  intro r k g s
  unfold handleEndpointFeature
  split_ifs
  · rfl
  · split
    · rfl
    · simp only [setHalf_relabel]

theorem startCursor (src : CursorSrc) : BlindHandler fun r s => startCursor r src s := fun _ _ _ _ => rfl

theorem getDescriptor : BlindHandler handleGetDescriptor := by
  intro r k g s
  unfold handleGetDescriptor
  rw [show (relabel k g s).par = s.par from rfl]
  cases descriptorSrc s.par r with
  | some src => exact startCursor src r k g s
  | none => rfl

theorem setAddress : BlindHandler handleSetAddress :=
  .ite (c := fun r _ => r.wValueH ≠ 0 ∨ r.wValueL.toNat > 127) (fun _ _ _ _ => Iff.rfl) unsupported fun _ _ _ _ => rfl

theorem setConfiguration : BlindHandler handleSetConfiguration :=
  .ite (c := fun r _ => r.wValueL.toNat > 1) (fun _ _ _ _ => Iff.rfl) unsupported fun _ _ _ _ => rfl

/-- A branch of a dispatcher on the packet alone (R80, R88). -/
theorem onPacket {c : SetupRequest → Prop} [DecidablePred c] {f h : Handler} (hf : BlindHandler f) (hh : BlindHandler h) :
    BlindHandler fun r s => if c r then f r s else h r s :=
  .ite (c := fun r _ => c r) (fun _ _ _ _ => Iff.rfl) hf hh

theorem dispatchStandard : BlindHandler dispatchStandard :=
  .onPacket (fun _ _ _ _ => rfl) <|
  .onPacket (.onPacket clearFeatureDevice (.onPacket (endpointFeature _) unsupported)) <|
  .onPacket (.onPacket setFeatureDevice (.onPacket (endpointFeature _) unsupported)) <|
  .onPacket setAddress <| .onPacket getDescriptor <| .onPacket (fun _ _ _ _ => rfl) <|
  .onPacket setConfiguration unsupported

theorem dispatchNonStandard : BlindHandler dispatchNonStandard :=
  .onPacket (fun _ _ _ _ => rfl) <| .onPacket (startCursor .lc) <| .onPacket (fun _ _ _ _ => rfl) <|
  .onPacket (fun _ _ _ _ => rfl) unsupported

theorem dispatchRequest : BlindHandler dispatchRequest := .onPacket dispatchStandard dispatchNonStandard

end BlindHandler

/-- The response writes the stage, and a failure its kind: both from the handler's result alone (R82, R83). -/
theorem finishSetup_relabel (r : SetupRequest) (res : SetupResult) (k : Option FailKind) (g : Stage) (u : State) :
    ∃ k' g', finishSetup r (res, relabel k g u) = relabel k' g' (finishSetup r (res, u)) := by
  cases res with
  | ok n => exact ⟨k, stageAfterOk r, rfl⟩
  | fail q => exact ⟨some q, .stalled, rfl⟩
  | sleep => exact ⟨k, g, rfl⟩
  | noReturn => exact ⟨k, g, rfl⟩

theorem blind_acceptedRequest (r : SetupRequest) {f : Handler} (hf : BlindHandler f) : Blind (acceptedRequest r f) := by
  intro k g s
  rw [acceptedRequest_eq, acceptedRequest_eq, show prepared r (relabel k g s) = relabel k g (prepared r s) from rfl, hf]
  exact finishSetup_relabel r _ k g _

theorem blindOp_request (a : DevAddr) (r : SetupRequest) {f : Handler} (hf : BlindHandler f) :
    BlindOp (setupGate (requestTransaction a r f)) :=
  blindOp_setupGate <| .ite (c := fun s => a ≠ s.sess.addr) (fun _ _ _ => Iff.rfl) (.respond _) (blind_acceptedRequest r hf)

theorem blind_setupTransaction (a : DevAddr) (data : List Byte) : Blind (setupTransaction a data) := by
  refine .ite (c := fun s => a ≠ s.sess.addr) (fun _ _ _ => Iff.rfl) (.respond _) <|
    .ite (c := fun _ => data.length > maxPkt) (fun _ _ _ => Iff.rfl) (.raise _) ?_
  cases packetOf data with
  | some r => exact blind_acceptedRequest r .dispatchRequest
  | none => exact fun _ _ _ => ⟨some .malformedRequest, .stalled, rfl⟩

/-! ### Tokens -/

theorem blind_undeclaredToken (a : DevAddr) : Blind (undeclaredToken a) :=
  .ite (c := fun s => a ≠ s.sess.addr) (fun _ _ _ => Iff.rfl) (.respond _) (.raise _)

theorem half_relabel (n : EpNum) (d : Dir) (k : Option FailKind) (g : Stage) (s : State) :
    (relabel k g s).half n d = s.half n d := by
  cases n <;> cases d <;> rfl

theorem blind_advance (n : EpNum) (d : Dir) : Blind (advance n d) :=
  .ite (c := fun _ => autoTog n = true) (fun _ _ _ => Iff.rfl)
    (.of_comm fun k g s => by rw [setHalf_relabel, half_relabel]) .same

theorem blind_inTransaction (n : EpNum) (sp : Space) {f : State → State} (hf : Blind f) (a : DevAddr) (acks : Bool) :
    Blind (inTransaction n sp f a acks) := by
  have hsent : Blind (sent n sp) := .emit _ fun k g s => by
    rw [half_relabel]
    cases n <;> rfl
  refine .ite (c := fun s => a ≠ s.sess.addr) (fun _ _ _ => Iff.rfl) (.respond _) <|
    .onMode (fun k g s => by rw [half_relabel]) (.respond _) (.respond _) ?_
  cases acks
  · exact hsent
  · exact hf.comp ((blind_advance n .tx).comp hsent)

theorem blind_acceptOut (n : EpNum) (sp : Space) {f : Bool → State → State} (hf : ∀ ok, Blind (f ok)) (pid : Pid)
    (data : List Byte) : Blind (acceptOut n sp f pid data) := by
  have hlanded : Blind fun s => ((s.memWrite sp 0 data).setRxLen n data.length).respond .ack :=
    .of_comm fun k g s => by cases n <;> rfl
  intro k g s
  unfold acceptOut
  rw [half_relabel]
  cases syncOk pid (s.half n .rx)
  · exact (hf false).comp hlanded k g s
  · exact (hf true).comp ((blind_advance n .rx).comp hlanded) k g s

theorem blind_outTransaction (n : EpNum) (sp : Space) {f : Bool → State → State} (hf : ∀ ok, Blind (f ok)) (a : DevAddr)
    (pid : Pid) (data : List Byte) : Blind (outTransaction n sp f a pid data) :=
  .ite (c := fun s => a ≠ s.sess.addr) (fun _ _ _ => Iff.rfl) (.respond _) <|
    .ite (c := fun _ => data.length > maxPkt) (fun _ _ _ => Iff.rfl) (.raise _) <|
    .onMode (fun k g s => by rw [half_relabel]) (.respond _) (.respond _) (blind_acceptOut n sp hf pid data)

/-- An EP0 IN completion moves the stage on (R30, R105). -/
theorem blind_ep0InComplete : Blind ep0InComplete := by
  rw [show ep0InComplete = _ from funext ep0InComplete_eq]
  exact .ite (fun _ _ _ => Iff.rfl) (fun k g _ => ⟨k, stageAfterIn g, rfl⟩) <|
    .ite (fun _ _ _ => Iff.rfl) (fun k g _ => ⟨k, stageAfterIn g, rfl⟩) fun k g _ => ⟨k, stageAfterIn g, rfl⟩

theorem blind_statusOut : Blind statusOut := fun k _ _ => ⟨k, _, by rw [statusOut_eq, statusOut_eq]; rfl⟩

theorem blind_ep0OutComplete (sync : Bool) : Blind (ep0OutComplete sync) :=
  .ite (c := fun s => s.ctl.pendReq = 0x20) (fun _ _ _ => Iff.rfl)
    (.ite (c := fun _ => (!sync) = true) (fun _ _ _ => Iff.rfl) .same <|
      .ite (c := fun s => s.ep0.rxLen ≠ lcLen) (fun _ _ _ => Iff.rfl) (.raise _) fun k _ _ => ⟨k, _, rfl⟩)
    blind_statusOut

theorem blind_ep2OutComplete (sync : Bool) : Blind (ep2OutComplete sync) :=
  .ite (c := fun _ => sync = true) (fun _ _ _ => Iff.rfl) (.of_comm fun _ _ _ => rfl) .same

/-! ### The main loop and the bus events -/

theorem blind_rxStep : Blind rxStep :=
  .ite (c := fun s => s.rx.count > 0) (fun _ _ _ => Iff.rfl) (.of_comm fun _ _ _ => rfl) .same

theorem blind_txStep : Blind txStep :=
  .ite (c := fun s => configured s.sess = true) (fun _ _ _ => Iff.rfl)
    (.ite (c := fun s => drainDue { s.tx with timeout := countedTimeout s.par s.tx } = true) (fun _ _ _ => Iff.rfl)
      (.of_comm fun _ _ _ => rfl) (.of_comm fun _ _ _ => rfl)) .same

theorem blind_busResetNow : Blind busResetNow := fun k _ _ => ⟨k, .idle, rfl⟩

theorem blindOp_busReset : BlindOp execBusReset := fun k g s =>
  .gate (blind_busResetNow.next k g s) (.refused _) ((blind_busResetNow.comp (blind_wake .usb)).next k g s) (.refused _)

theorem blindOp_busSuspend : BlindOp execBusSuspend := fun k g _ =>
  .gate (.next _ k g) (.refused _) (.next _ k g) (.refused _)

theorem blindOp_poll (uart : Bool) : BlindOp (execPoll uart) := by
  intro k g s
  cases uart <;> exact .gate (.next _ k g) (.next _ k g) (.next _ k g) (.refused _)

/-! ### Every operation -/

theorem blindOp_exec (i : Instr) : BlindOp (exec i) := by
  cases i
  case getStatus a r => exact blindOp_request a r fun _ _ _ _ => rfl
  case clearFeatureDevice a r => exact blindOp_request a r .clearFeatureDevice
  case clearFeatureEndpoint a r => exact blindOp_request a r (.endpointFeature _)
  case clearFeatureBad a r => exact blindOp_request a r .unsupported
  case setFeatureDevice a r => exact blindOp_request a r .setFeatureDevice
  case setFeatureEndpoint a r => exact blindOp_request a r (.endpointFeature _)
  case setFeatureBad a r => exact blindOp_request a r .unsupported
  case setAddress a r => exact blindOp_request a r .setAddress
  case setAddressBad a r => exact blindOp_request a r .unsupported
  case getDescriptorDevice a r => exact blindOp_request a r .getDescriptor
  case getDescriptorConfig a r => exact blindOp_request a r .getDescriptor
  case getDescriptorString a r => exact blindOp_request a r .getDescriptor
  case getDescriptorBad a r => exact blindOp_request a r .unsupported
  case getConfiguration a r => exact blindOp_request a r fun _ _ _ _ => rfl
  case setConfiguration a r => exact blindOp_request a r .setConfiguration
  case setConfigurationBad a r => exact blindOp_request a r .unsupported
  case stdUnsupported a r => exact blindOp_request a r .unsupported
  case setLineCoding a r => exact blindOp_request a r fun _ _ _ _ => rfl
  case getLineCoding a r => exact blindOp_request a r (.startCursor .lc)
  case setControlLineState a r => exact blindOp_request a r fun _ _ _ _ => rfl
  case resetDeviceToBootloader a r => exact blindOp_request a r fun _ _ _ _ => rfl
  case nonstdUnsupported a r => exact blindOp_request a r .unsupported
  case setup a data => exact blindOp_setupGate (blind_setupTransaction a data)
  case setupUndeclaredEp ep a data => exact blindOp_setupGate (blind_undeclaredToken a)
  case inEp0 a acks => exact blindOp_tokenGate a (blind_inTransaction .ep0 .ep0tx blind_ep0InComplete a acks)
  case inEp1 a acks => exact blindOp_tokenGate a (blind_inTransaction .ep1 .ep1tx (.of_comm fun _ _ _ => rfl) a acks)
  case inEp2 a acks => exact blindOp_tokenGate a (blind_inTransaction .ep2 .ep2tx (.of_comm fun _ _ _ => rfl) a acks)
  case inUndeclaredEp ep a acks => exact blindOp_tokenGate a (blind_undeclaredToken a)
  case outEp0 a pid data => exact blindOp_tokenGate a (blind_outTransaction .ep0 .ep0rx blind_ep0OutComplete a pid data)
  case outEp2 a pid data => exact blindOp_tokenGate a (blind_outTransaction .ep2 .ep2rx blind_ep2OutComplete a pid data)
  case outUndeclaredEp ep a pid data => exact blindOp_tokenGate a (blind_undeclaredToken a)
  case busReset => exact blindOp_busReset
  case busSuspend => exact blindOp_busSuspend
  case resume => exact blindOp_wakeGate .usb
  case rxd0Low => exact blindOp_wakeGate .rxd0
  case rxd1Low => exact blindOp_wakeGate .rxd1
  case poll uart => exact blindOp_poll uart
  case tick => exact blindOp_mainGate (blind_txStep.comp blind_rxStep)
  case enq b =>
    exact blindOp_mainGate <| .ite (c := fun s => s.tx.pend = txcap s.par) (fun _ _ _ => Iff.rfl) (.raise _)
      (.of_comm fun _ _ _ => rfl)
  case emptyQuery => exact blindOp_mainGate (.of_comm fun _ _ _ => rfl)

/-- Settles O58: every operation is blind to the two fields. -/
theorem failKindAndStageAreUnobservable : Obligations.FailKindAndStageAreUnobservable := by
  intro i s k g s'
  have hsame : SameAnswer (exec i s) (exec i s') := blindOp_exec i k g s
  generalize exec i s = o, exec i s' = o' at hsame ⊢
  cases hsame with
  | next t k' g' => exact ⟨k', g', rfl⟩
  | fault f => rfl
  | refused q => rfl

end Sys2Proof.Machine
end

section
/-! PROOFS, family 20: the two contexts of R134 share only the state R52 lists (O57). What a main-loop operation keeps and what an
ISR operation keeps are each a relation between a state and its next; a composed operation keeps what its parts keep. -/

namespace Sys2Proof.Machine
open Sys2Proof

/-- What a byte reads as depends on the table and on the listed bytes of its own space alone. -/
theorem memRead_congr_space {s t : State} {sp : Space} (ht : t.table sp = s.table sp) (hm : t.mem.cells sp = s.mem.cells sp)
    (x : Nat) : t.memRead sp x = s.memRead sp x := by
  simp only [State.memRead, State.known, ht, hm]

/-! ### The main loop -/

/-- What a main-loop operation keeps: all but the state R52 lists and the model's fault mark, outputs and queue. -/
structure MainLoopKeeps (s t : State) : Prop where
  par : t.par = s.par
  sess : t.sess = s.sess
  ep0 : t.ep0 = s.ep0
  ep1 : t.ep1 = s.ep1
  ep3 : t.ep3 = s.ep3
  ctl : t.ctl = s.ctl
  lc : t.lc = s.lc
  pwr : t.pwr = s.pwr
  rxLen : t.ep2.rxLen = s.ep2.rxLen
  txTog : t.ep2.tx.tog = s.ep2.tx.tog
  rxTog : t.ep2.rx.tog = s.ep2.rx.tog
  cells : ∀ sp, sp ≠ .ring → sp ≠ .ep2tx → t.mem.cells sp = s.mem.cells sp

namespace MainLoopKeeps

theorem trans {s t u : State} (h : MainLoopKeeps s t) (h' : MainLoopKeeps t u) : MainLoopKeeps s u where
  par := h'.par.trans h.par
  sess := h'.sess.trans h.sess
  ep0 := h'.ep0.trans h.ep0
  ep1 := h'.ep1.trans h.ep1
  ep3 := h'.ep3.trans h.ep3
  ctl := h'.ctl.trans h.ctl
  lc := h'.lc.trans h.lc
  pwr := h'.pwr.trans h.pwr
  rxLen := h'.rxLen.trans h.rxLen
  txTog := h'.txTog.trans h.txTog
  rxTog := h'.rxTog.trans h.rxTog
  cells := fun sp hr h2 => (h'.cells sp hr h2).trans (h.cells sp hr h2)

theorem memRead {s t : State} (h : MainLoopKeeps s t) {sp : Space} (hr : sp ≠ .ring) (h2 : sp ≠ .ep2tx) (x : Nat) :
    t.memRead sp x = s.memRead sp x :=
  memRead_congr_space (by simp only [State.table, h.par, h.lc]) (h.cells sp hr h2) x

theorem emit (e : Event) (s : State) : MainLoopKeeps s (s.emit e) := by constructor <;> intros <;> rfl

theorem raise (k : Fault) (s : State) : MainLoopKeeps s (s.raise k) := by constructor <;> intros <;> rfl

/-- The RX step writes the receive counters and EP2's OUT mode (R112). -/
theorem rxStep (s : State) : MainLoopKeeps s (rxStep s) := by
  rw [rxStep_eq]
  split_ifs <;> constructor <;> intros <;> rfl

/-- The TX step writes the ring, EP2's IN mode and length, and bytes of EP2TX (R115). -/
theorem txStep (s : State) : MainLoopKeeps s (txStep s) := by
  rw [txStep_eq]
  split_ifs
  · constructor
    case cells => exact fun sp _ h2 => cells_write_other h2 _ _ _
    all_goals rfl
  all_goals constructor <;> intros <;> rfl

/-- An enqueue writes the ring and a byte of RING (R114). -/
theorem enqueue (b : Byte) (s : State) : MainLoopKeeps s (enqueue b s) := by
  constructor
  case cells => exact fun sp hr _ => cells_write_other hr _ _ _
  all_goals rfl

end MainLoopKeeps

/-- A main-loop operation is a tick, an enqueue or an empty query (R134), and each keeps what R52 does not list. -/
theorem mainLoopKeeps_of_exec {i : Instr} {s t : State} (hc : contextOf i = .mainLoop) (hx : exec i s = .next t) :
    MainLoopKeeps s t := by
  cases i
  case tick =>
    obtain ⟨-, rfl⟩ := mainGate_next (run := fun s => txStep (rxStep s)) hx
    exact (MainLoopKeeps.rxStep s).trans (.txStep _)
  case enq b =>
    obtain ⟨-, rfl⟩ :=
      mainGate_next (run := fun s => if s.tx.pend = txcap s.par then s.raise .txOverflow else enqueue b s) hx
    split
    · exact .raise _ s
    · exact .enqueue b s
  case emptyQuery =>
    obtain ⟨-, rfl⟩ := mainGate_next hx
    exact .emit _ s
  all_goals simp [contextOf, opClass] at hc

/-! ### The dispatcher -/

theorem clearFeature_result (r : SetupRequest) (s : State) : ∃ i, RequestResult i r s (handleClearFeature r s) := by
  unfold handleClearFeature handleClearFeatureDevice
  split_ifs
  · exact ⟨.clearFeatureBad 0 r, .failed _⟩
  · exact ⟨.clearFeatureDevice 0 r, .failed _⟩
  · exact ⟨.clearFeatureDevice 0 r, .accepted⟩
  · exact ⟨.clearFeatureEndpoint 0 r, endpointFeature_result _ (by decide) s ⟨0, .inl rfl⟩⟩
  · exact ⟨.clearFeatureBad 0 r, .failed _⟩

theorem setFeature_result (r : SetupRequest) (s : State) : ∃ i, RequestResult i r s (handleSetFeature r s) := by
  unfold handleSetFeature handleSetFeatureDevice
  split_ifs
  · exact ⟨.setFeatureBad 0 r, .failed _⟩
  · exact ⟨.setFeatureDevice 0 r, .failed _⟩
  · exact ⟨.setFeatureDevice 0 r, .sleep ⟨0, rfl⟩⟩
  · exact ⟨.setFeatureEndpoint 0 r, endpointFeature_result _ (by decide) s ⟨0, .inr rfl⟩⟩
  · exact ⟨.setFeatureBad 0 r, .failed _⟩

theorem setAddress_result (r : SetupRequest) (s : State) : ∃ i, RequestResult i r s (handleSetAddress r s) := by
  unfold handleSetAddress
  split
  · exact ⟨.setAddressBad 0 r, .failed _⟩
  · exact ⟨.setAddress 0 r, .address ⟨0, rfl⟩⟩

theorem setConfiguration_result (r : SetupRequest) (s : State) : ∃ i, RequestResult i r s (handleSetConfiguration r s) := by
  unfold handleSetConfiguration
  split
  · exact ⟨.setConfigurationBad 0 r, .failed _⟩
  · exact ⟨.setConfiguration 0 r, .configuration _ ⟨0, rfl⟩⟩

theorem dispatchStandard_result (r : SetupRequest) (s : State) : ∃ i, RequestResult i r s (dispatchStandard r s) := by
  unfold dispatchStandard
  split_ifs
  · exact ⟨.getStatus 0 r, .answered _ _ (Nat.min_le_right _ _) (Nat.le_refl 2)⟩
  · exact clearFeature_result r s
  · exact setFeature_result r s
  · exact setAddress_result r s
  · exact ⟨.getDescriptorDevice 0 r, getDescriptor_result _ r s⟩
  · exact ⟨.getConfiguration 0 r, .answered _ _ (Nat.min_le_right _ _) (Nat.le_succ 1)⟩
  · exact setConfiguration_result r s
  · exact ⟨.stdUnsupported 0 r, .failed _⟩

theorem dispatchNonStandard_result (r : SetupRequest) (s : State) : ∃ i, RequestResult i r s (dispatchNonStandard r s) := by
  unfold dispatchNonStandard
  split_ifs
  · exact ⟨.setLineCoding 0 r, .accepted⟩
  · exact ⟨.getLineCoding 0 r, .cursor .lc .lc rfl rfl⟩
  · exact ⟨.setControlLineState 0 r, .accepted⟩
  · exact ⟨.resetDeviceToBootloader 0 r, .exit ⟨0, rfl⟩⟩
  · exact ⟨.nonstdUnsupported 0 r, .failed _⟩

/-- Whatever the packet, the dispatcher gives what the handler of some row may give (R80). -/
theorem dispatchRequest_result (r : SetupRequest) (s : State) : ∃ i, RequestResult i r s (dispatchRequest r s) := by
  unfold dispatchRequest
  split
  · exact dispatchStandard_result r s
  · exact dispatchNonStandard_result r s

/-! ### The ISR -/

/-- What an ISR operation keeps: the ring but for `busy`, and the bytes of RING. -/
structure IsrKeeps (s t : State) : Prop where
  tx : t.tx = { s.tx with busy := t.tx.busy }
  ring : t.mem.ring = s.mem.ring

namespace IsrKeeps

theorem of_eq {s t : State} (htx : t.tx = s.tx) (hring : t.mem.ring = s.mem.ring) : IsrKeeps s t := ⟨by rw [htx], hring⟩

theorem trans {s t u : State} (h : IsrKeeps s t) (h' : IsrKeeps t u) : IsrKeeps s u :=
  ⟨by rw [h'.tx, h.tx], h'.ring.trans h.ring⟩

theorem memRead {s t : State} (h : IsrKeeps s t) (x : Nat) : t.memRead .ring x = s.memRead .ring x :=
  memRead_congr_space (s := s) (t := t) (sp := .ring) rfl h.ring x

theorem wake (src : WakeSrc) (s : State) : IsrKeeps s (wake src s) := .of_eq (wake_tx src s) (by rw [wake_mem])

end IsrKeeps

/-- A handler writes no part of the ring, and of memory EP0TX alone. -/
theorem RequestResult.ring_kept {i : Instr} {r : SetupRequest} {s : State} {p : SetupResult × State} (h : RequestResult i r s p) :
    p.2.tx = s.tx ∧ p.2.mem.ring = s.mem.ring := by
  cases h with
  | feature n d m hm hx hi => exact ⟨setHalf_tx n d _ s, by rw [setHalf_mem]⟩
  | _ => exact ⟨rfl, rfl⟩

/-- A Setup step whose handler gives what some row's handler may give keeps the ring: the packet lands in EP0RX (R79). -/
theorem isrKeeps_acceptedRequest {i : Instr} {r : SetupRequest} {f : Handler} {s : State}
    (h : RequestResult i r (prepared r s) (f r (prepared r s))) : IsrKeeps s (acceptedRequest r f s) := by
  obtain ⟨htx, hring⟩ := h.ring_kept
  rw [acceptedRequest_eq]
  exact .of_eq (by rw [finishSetup_tx, htx]; rfl) (by rw [finishSetup_mem, hring]; rfl)

/-- The ring but for `busy`, and RING, stand in every way to a next state but a tick's and an enqueue's. -/
theorem isrKeeps_of_exec {i : Instr} {s t : State} (hc : contextOf i = .isr) (hx : exec i s = .next t) : IsrKeeps s t := by
  cases exec_next hx with
  | request a r f hp hr hf => exact isrKeeps_acceptedRequest (hf _)
  | packet a r hp hi =>
    obtain ⟨j, hj⟩ := dispatchRequest_result r (prepared r s)
    exact isrKeeps_acceptedRequest hj
  | in0 a hp hi hm =>
    rw [ep0InComplete_eq]
    split_ifs <;> exact ⟨rfl, rfl⟩
  | out0 a pid data hp hi hl hm =>
    obtain ⟨u, rfl, -, -, -, -, -, htx, -, -, -, -, -, -, hmem, -⟩ := acceptOut_ep0_frame pid data s
    exact .of_eq htx (by rw [hmem]; rfl)
  | out2 a pid data hp hi hl hm =>
    rw [acceptOut_ep2_eq]
    split_ifs <;> exact ⟨rfl, rfl⟩
  | tick hp hi => simp [hi, contextOf, opClass] at hc
  | enqueue b hp hi hpend => simp [hi, contextOf, opClass] at hc
  | wakeToken hp hi => exact { IsrKeeps.wake .usb s with }
  | wakeReset hp hi => exact .trans (.wake .usb s) ⟨rfl, rfl⟩
  | wakeEvent src hp hi => exact .wake src s
  | _ => exact ⟨rfl, rfl⟩

/-- Settles O57: what each context keeps, read off the relation of that context. -/
theorem contextsShareOnlyTheListedState : Obligations.ContextsShareOnlyTheListedState := by
  intro i s t hx
  refine ⟨fun hc => ?_, fun hc => ?_⟩
  · have h := mainLoopKeeps_of_exec hc hx
    exact ⟨h.par, h.sess, h.ep0, h.ep1, h.ep3, h.ctl, h.lc, h.pwr, h.rxLen, h.txTog, h.rxTog,
      fun sp x hr h2 => h.memRead hr h2 x⟩
  · have h := isrKeeps_of_exec hc hx
    exact ⟨h.tx, h.memRead⟩

end Sys2Proof.Machine
end

section
/-! PROOFS, family 30: the decoder takes exactly the bytes of the encoding it gives (O1, O2); words of the table (O4), and the codes
R68 leaves unassigned (O6). -/

namespace Sys2Proof.Machine
open Sys2Proof

/-! ### The bytes that decode -/

/-- What a SETUP of endpoint 0 decodes to is encoded as that SETUP, whether or not it is a request (R65). -/
theorem encode_setupInstr (a : DevAddr) (data : List Byte) : encode (setupInstr a data) = encodeSetup 0 a data := by
  unfold setupInstr
  split
  · rename_i r hr
    rw [encode_decodeRequest, encodeRequest, packetBytes_of_packetOf hr]
  · rfl

theorem encode_decodeOut {ep : BitVec 4} {l rest : List Byte} {i : Instr} (h : decodeOut ep l = .ok (i, rest)) :
    encode i ++ rest = tokenCode 0 ep :: l := by
  obtain ⟨a, pid, data, rfl, -, rfl⟩ := decodeOutOperands_ok h
  split_ifs with h0 h2
  · rw [h0]; rfl
  · rw [h2]; rfl
  · rfl

theorem encode_decodeIn {ep : BitVec 4} {l rest : List Byte} {i : Instr} (h : decodeIn ep l = .ok (i, rest)) :
    encode i ++ rest = tokenCode 2 ep :: l := by
  obtain ⟨a, acks, rfl, rfl⟩ := decodeInOperands_ok h
  split_ifs with h0 h1 h2
  · rw [h0]; rfl
  · rw [h1]; rfl
  · rw [h2]; rfl
  · rfl

theorem encode_decodeSetup {ep : BitVec 4} {l rest : List Byte} {i : Instr} (h : decodeSetup ep l = .ok (i, rest)) :
    encode i ++ rest = tokenCode 3 ep :: l := by
  obtain ⟨a, data, rfl, -, rfl⟩ := decodeSetupOperands_ok h
  split_ifs with h0
  · rw [encode_setupInstr, h0]; rfl
  · rfl

theorem encode_decodePoll {l rest : List Byte} {i : Instr} (h : decodePoll l = .ok (i, rest)) :
    encode i ++ rest = 0x48 :: l := by
  unfold decodePoll at h
  split at h
  · split at h
    · rename_i hflag
      cases h
      rw [← encodeFlag_of_decodeFlag hflag]
      rfl
    · cases h
  · cases h

theorem encode_decodeEnq {l rest : List Byte} {i : Instr} (h : decodeEnq l = .ok (i, rest)) :
    encode i ++ rest = 0x81 :: l := by
  unfold decodeEnq at h
  split at h
  · cases h
    rfl
  · cases h

theorem encode_decodeEvent {op : Byte} {l rest : List Byte} {i : Instr} (h : decodeEvent op l = .ok (i, rest)) :
    encode i ++ rest = op :: l := by
  by_cases hpoll : op = 0x48
  · subst hpoll
    exact encode_decodePoll h
  by_cases henq : op = 0x81
  · subst henq
    exact encode_decodeEnq h
  simp only [decodeEvent, if_neg hpoll, if_neg henq] at h
  split_ifs at h
  all_goals cases h
  all_goals
    subst op
    rfl

/-- Decoding takes exactly the encoding of what it gives. -/
theorem encode_of_decode {bs rest : List Byte} {i : Instr} (h : decode bs = .ok (i, rest)) : encode i ++ rest = bs := by
  unfold decode at h
  split at h
  · cases h
  · rename_i op l
    have hop := tokenCode_of_fields op
    split_ifs at h with hout hin hsetup
    · rw [encode_decodeOut h, ← hout, hop]
    · rw [encode_decodeIn h, ← hin, hop]
    · rw [encode_decodeSetup h, ← hsetup, hop]
    · exact encode_decodeEvent h

/-- Settles O1: the round trip of the encoder. -/
theorem encodedInstructionDecodesToItself : Obligations.EncodedInstructionDecodesToItself :=
  fun _ rest hw => decode_encode hw rest

/-- Settles O2: the decoder gives well-formed instructions only, and takes the bytes of their encoding. -/
theorem decodedBytesAreTheEncoding : Obligations.DecodedBytesAreTheEncoding :=
  fun _ _ _ h => ⟨wellFormed_of_decode h, (encode_of_decode h).symm⟩

/-- Settles O4: the eight words, decoded. -/
theorem tableWordsDecodeToTheirRows : Obligations.TableWordsDecodeToTheirRows := by
  unfold Obligations.TableWordsDecodeToTheirRows
  decide

/-! ### Unassigned codes -/

/-- The token field is the code's upper hexadecimal digit. -/
theorem opToken_toNat (op : Byte) : (opToken op).toNat = op.toNat / 16 := by
  rw [opToken, BitVec.extractLsb'_toNat, Nat.shiftRight_eq_div_pow]
  omega

/-- A code whose token field is none of OUT, IN and SETUP is an event's. -/
theorem decode_eq_decodeEvent {op : Byte} (h0 : op.toNat / 16 ≠ 0) (h2 : op.toNat / 16 ≠ 2) (h3 : op.toNat / 16 ≠ 3)
    (rest : List Byte) : decode (op :: rest) = decodeEvent op rest := by
  rw [← opToken_toNat] at h0 h2 h3
  rw [decode, if_neg fun h => h0 (by rw [h]; rfl), if_neg fun h => h2 (by rw [h]; rfl), if_neg fun h => h3 (by rw [h]; rfl)]

/-- A code that is none of R68's events is refused. -/
theorem decodeEvent_unassigned {op : Byte} (h : op ∉ ([0x40, 0x41, 0x42, 0x43, 0x44, 0x48, 0x80, 0x81, 0x82] : List Byte))
    (rest : List Byte) : decodeEvent op rest = .error (.unassignedCode op) := by
  simp only [List.mem_cons, List.not_mem_nil, or_false, not_or] at h
  simp only [decodeEvent, h, if_false]

/-- Settles O6: the unassigned codes lie outside the token space and are no event's. -/
theorem unassignedCodesHaveNoStep : Obligations.UnassignedCodesHaveNoStep := by
  intro s op rest hinput hop
  have hevent : op ∉ ([0x40, 0x41, 0x42, 0x43, 0x44, 0x48, 0x80, 0x81, 0x82] : List Byte) := by
    intro hmem
    have hcode : op.toNat ∈ [64, 65, 66, 67, 68, 72, 128, 129, 130] := List.mem_map_of_mem (f := BitVec.toNat) hmem
    simp only [List.mem_cons, List.not_mem_nil, or_false] at hcode
    omega
  have hdecode : decode s.input = .error (.unassignedCode op) := by
    rw [hinput, decode_eq_decodeEvent (by omega) (by omega) (by omega), decodeEvent_unassigned hevent]
  simp only [step, hdecode]

end Sys2Proof.Machine
end

section
/-! PROOFS, family 30: the first matching row of the opcode table and the dispatcher of R80 give a packet one meaning (O3). -/

namespace Sys2Proof.Machine
open Sys2Proof

/-! ### The dispatcher's route -/

theorem dispatchRequest_standard {r : SetupRequest} (h : isStandard r = true) (s : State) :
    dispatchRequest r s = dispatchStandard r s := if_pos h

theorem dispatchRequest_nonStandard {r : SetupRequest} (h : isStandard r = false) (s : State) :
    dispatchRequest r s = dispatchNonStandard r s := if_neg (by simp [h])

/-- The dispatcher's SETUP of an 8-byte packet is the Setup transaction of a row with the dispatcher as its handler (R79). -/
theorem exec_setup_packetBytes (a : DevAddr) (r : SetupRequest) (s : State) :
    exec (.setup a (packetBytes r)) s = setupGate (requestTransaction a r dispatchRequest) s := by
  have hrun : setupTransaction a (packetBytes r) = requestTransaction a r dispatchRequest := by
    funext u
    simp [setupTransaction, requestTransaction, maxPkt]
  rw [exec, execSetup, hrun]

/-- Two handlers that agree on the packet make one Setup transaction. -/
theorem requestTransaction_congr {f g : Handler} {r : SetupRequest} (h : ∀ u, f r u = g r u) (a : DevAddr) :
    requestTransaction a r f = requestTransaction a r g := by
  funext u
  simp [requestTransaction, acceptedRequest, h]

/-- A row whose handler agrees with the dispatcher on the packet means what the SETUP of the packet means. -/
theorem exec_eq_exec_setup {i : Instr} {a : DevAddr} {r : SetupRequest} {f : Handler} {s : State}
    (hx : exec i s = setupGate (requestTransaction a r f) s) (hf : ∀ u, f r u = dispatchRequest r u) :
    exec i s = exec (.setup a (packetBytes r)) s := by
  rw [hx, requestTransaction_congr hf, exec_setup_packetBytes]

/-! ### The operand checks of the table are those of the handlers -/

/-- Routing a feature request by recipient and checking its selector fails but for the two pairings of R60 (R88, R90, R91). -/
theorem handleClearFeature_bad {r : SetupRequest} (hdev : ¬ (recipient r = 0 ∧ wValue r = 1))
    (hep : ¬ (recipient r = 2 ∧ wValue r = 0)) (s : State) : handleClearFeature r s = handleUnsupported r s := by
  unfold handleClearFeature
  split_ifs with h0 h2
  · exact Prod.ext (if_pos fun hv => hdev ⟨h0, hv⟩) rfl
  · exact if_pos fun hv => hep ⟨h2, hv⟩
  · rfl

/-- R88, R92, R93: as for CLEAR_FEATURE. -/
theorem handleSetFeature_bad {r : SetupRequest} (hdev : ¬ (recipient r = 0 ∧ wValue r = 1))
    (hep : ¬ (recipient r = 2 ∧ wValue r = 0)) (s : State) : handleSetFeature r s = handleUnsupported r s := by
  unfold handleSetFeature
  split_ifs with h0 h2
  · exact Prod.ext (if_pos fun hv => hdev ⟨h0, hv⟩) rfl
  · exact if_pos fun hv => hep ⟨h2, hv⟩
  · rfl

theorem handleClearFeature_device {r : SetupRequest} (h : recipient r = 0) (s : State) :
    handleClearFeature r s = handleClearFeatureDevice r s := if_pos h

theorem handleSetFeature_device {r : SetupRequest} (h : recipient r = 0) (s : State) :
    handleSetFeature r s = handleSetFeatureDevice r s := if_pos h

theorem handleClearFeature_endpoint {r : SetupRequest} (h : recipient r = 2) (s : State) :
    handleClearFeature r s = handleClearFeatureEndpoint r s := by simp [handleClearFeature, h]

theorem handleSetFeature_endpoint {r : SetupRequest} (h : recipient r = 2) (s : State) :
    handleSetFeature r s = handleSetFeatureEndpoint r s := by simp [handleSetFeature, h]

/-- SET_ADDRESS fails outside 0..127 (R95). -/
theorem handleSetAddress_bad {r : SetupRequest} (h : ¬ (r.wValueH = 0 ∧ r.wValueL.toNat ≤ 127)) (s : State) :
    handleSetAddress r s = handleUnsupported r s := by
  exact if_pos ((not_and_or.1 h).imp_right Nat.not_le.1)

/-- GET_DESCRIPTOR fails for another type than 1, 2 and 3 (R96). -/
theorem handleGetDescriptor_bad {r : SetupRequest} (h1 : r.wValueH ≠ 1) (h2 : r.wValueH ≠ 2) (h3 : r.wValueH ≠ 3) (s : State) :
    handleGetDescriptor r s = handleUnsupported r s := by
  have hsrc : descriptorSrc s.par r = none := by simp only [descriptorSrc, if_neg h1, if_neg h2, if_neg h3]
  simp only [handleGetDescriptor, hsrc, handleUnsupported]

/-- SET_CONFIGURATION fails above 1 (R98). -/
theorem handleSetConfiguration_bad {r : SetupRequest} (h : ¬ r.wValueL.toNat ≤ 1) (s : State) :
    handleSetConfiguration r s = handleUnsupported r s := if_pos (Nat.not_le.1 h)

/-! ### Every row -/

/-- The rows of the standard requests (R80, R88, R95, R96, R98, R99). -/
theorem exec_decodeRequest_standard {r : SetupRequest} (hs : isStandard r = true) (a : DevAddr) (s : State) :
    exec (decodeRequest a r) s = exec (.setup a (packetBytes r)) s := by
  have route {i : Instr} {f : Handler} (hx : exec i s = setupGate (requestTransaction a r f) s)
      (hf : ∀ u, dispatchStandard r u = f r u) : exec i s = exec (.setup a (packetBytes r)) s :=
    exec_eq_exec_setup hx fun u => by rw [dispatchRequest_standard hs, hf]
  rw [decodeRequest_eq, if_pos hs]
  unfold dispatchStandard at route
  split_ifs at route ⊢ with h0 h1 hdev hep h3 hdev hep h5 haddr h6 hv1 hv2 hv3 h8 h9 hcfg
  · exact route rfl fun _ => rfl
  · exact route rfl (handleClearFeature_device hdev.1)
  · exact route rfl (handleClearFeature_endpoint hep.1)
  · exact route rfl (handleClearFeature_bad hdev hep)
  · exact route rfl (handleSetFeature_device hdev.1)
  · exact route rfl (handleSetFeature_endpoint hep.1)
  · exact route rfl (handleSetFeature_bad hdev hep)
  · exact route rfl fun _ => rfl
  · exact route rfl (handleSetAddress_bad haddr)
  · exact route rfl fun _ => rfl
  · exact route rfl fun _ => rfl
  · exact route rfl fun _ => rfl
  · exact route rfl (handleGetDescriptor_bad hv1 hv2 hv3)
  · exact route rfl fun _ => rfl
  · exact route rfl fun _ => rfl
  · exact route rfl (handleSetConfiguration_bad hcfg)
  · exact route rfl fun _ => rfl

/-- The rows of the class and vendor requests (R80, R104). -/
theorem exec_decodeRequest_nonStandard {r : SetupRequest} (hs : isStandard r = false) (a : DevAddr) (s : State) :
    exec (decodeRequest a r) s = exec (.setup a (packetBytes r)) s := by
  have route {i : Instr} {f : Handler} (hx : exec i s = setupGate (requestTransaction a r f) s)
      (hf : ∀ u, dispatchNonStandard r u = f r u) : exec i s = exec (.setup a (packetBytes r)) s :=
    exec_eq_exec_setup hx fun u => by rw [dispatchRequest_nonStandard hs, hf]
  rw [decodeRequest_eq, if_neg (by simp [hs])]
  unfold dispatchNonStandard at route
  split_ifs at route ⊢
  all_goals exact route rfl fun _ => rfl

/-- Settles O3: each row's handler, given the checks of its mask, is what the dispatcher runs for the packet. -/
theorem tableRowAndDispatcherAgree : Obligations.TableRowAndDispatcherAgree := by
  intro a r s
  cases hs : isStandard r
  · exact exec_decodeRequest_nonStandard hs a s
  · exact exec_decodeRequest_standard hs a s

end Sys2Proof.Machine
end

section
/-! PROOFS, family 30: the gating table of the power state (O45). A row of R124 is a gate, a column what the gates answer in that
power state. -/

namespace Sys2Proof.Machine
open Sys2Proof

/-! ### What a gate answers in each power state -/

section
variable {s : State} (hf : s.fault = none)
include hf

theorem unlessFaulted_none (k : Result) : unlessFaulted s k = k := by simp only [unlessFaulted, hf]

theorem setupGate_drainWait (hp : s.pwr.state = .drainWait) (run : State → State) :
    setupGate run s = .refused .notEnabled := by simp only [setupGate, unlessFaulted_none hf, hp]

theorem setupGate_halt (hp : s.pwr.state = .halt) (run : State → State) :
    setupGate run s = .next ((wake .usb s).respond .none) := by simp only [setupGate, unlessFaulted_none hf, hp]

theorem tokenGate_drainWait (hp : s.pwr.state = .drainWait) (a : DevAddr) (run : State → State) :
    tokenGate a run s = .next (s.respond (if a = s.sess.addr then .nak else .none)) := by
  simp only [tokenGate, unlessFaulted_none hf, hp]

theorem tokenGate_halt (hp : s.pwr.state = .halt) (a : DevAddr) (run : State → State) :
    tokenGate a run s = .next ((wake .usb s).respond .none) := by simp only [tokenGate, unlessFaulted_none hf, hp]

theorem mainGate_drainWait (hp : s.pwr.state = .drainWait) (run : State → State) :
    mainGate run s = .refused .notEnabled := by simp only [mainGate, unlessFaulted_none hf, hp]

theorem mainGate_halt (hp : s.pwr.state = .halt) (run : State → State) :
    mainGate run s = .refused .notEnabled := by simp only [mainGate, unlessFaulted_none hf, hp]

theorem wakeGate_run (hp : s.pwr.state = .run) (src : WakeSrc) : wakeGate src s = .next s := by
  simp only [wakeGate, unlessFaulted_none hf, hp]

theorem wakeGate_drainWait (hp : s.pwr.state = .drainWait) (src : WakeSrc) : wakeGate src s = .next s := by
  simp only [wakeGate, unlessFaulted_none hf, hp]

theorem wakeGate_halt (hp : s.pwr.state = .halt) (src : WakeSrc) : wakeGate src s = .next (wake src s) := by
  simp only [wakeGate, unlessFaulted_none hf, hp]

/-- In RUN every operation has a step (R124). -/
theorem exec_run_next (hp : s.pwr.state = .run) (i : Instr) : ∃ t, exec i s = .next t := by
  obtain ⟨-, run, h⟩ | ⟨-, a, run, -, h⟩ | ⟨-, run, h⟩ | ⟨-, h⟩ | ⟨-, h⟩ | ⟨-, h⟩ | rfl | rfl | ⟨u, rfl⟩ := exec_shape i
  · exact ⟨_, (h s).trans (setupGate_running ⟨hf, hp⟩ run)⟩
  · exact ⟨_, (h s).trans (tokenGate_running ⟨hf, hp⟩ a run)⟩
  · exact ⟨_, (h s).trans (mainGate_running ⟨hf, hp⟩ run)⟩
  · exact ⟨_, (h s).trans (wakeGate_run hf hp _)⟩
  · exact ⟨_, (h s).trans (wakeGate_run hf hp _)⟩
  · exact ⟨_, (h s).trans (wakeGate_run hf hp _)⟩
  · exact ⟨busResetNow s, by simp only [exec, execBusReset, unlessFaulted_none hf, hp]⟩
  · exact ⟨suspEnter .bus s, by simp only [exec, execBusSuspend, unlessFaulted_none hf, hp]⟩
  · exact ⟨s, by simp only [exec, execPoll, unlessFaulted_none hf, hp]⟩

/-- After the exit no operation has a step (R103, R133). -/
theorem exec_exited (hp : s.pwr.state = .exited) (i : Instr) : exec i s = .refused .exited := by
  obtain ⟨-, run, h⟩ | ⟨-, a, run, -, h⟩ | ⟨-, run, h⟩ | ⟨-, h⟩ | ⟨-, h⟩ | ⟨-, h⟩ | rfl | rfl | ⟨u, rfl⟩ := exec_shape i
  · simp only [h, setupGate, unlessFaulted_none hf, hp]
  · simp only [h, tokenGate, unlessFaulted_none hf, hp]
  · simp only [h, mainGate, unlessFaulted_none hf, hp]
  · simp only [h, wakeGate, unlessFaulted_none hf, hp]
  · simp only [h, wakeGate, unlessFaulted_none hf, hp]
  · simp only [h, wakeGate, unlessFaulted_none hf, hp]
  · simp only [exec, execBusReset, unlessFaulted_none hf, hp]
  · simp only [exec, execBusSuspend, unlessFaulted_none hf, hp]
  · simp only [exec, execPoll, unlessFaulted_none hf, hp]

end

/-! ### The operations of each row of R124 -/

theorem exec_of_opClass_setup {i : Instr} (hc : opClass i = .setup) : ∃ run, ∀ s, exec i s = setupGate run s := by
  obtain ⟨-, h⟩ | ⟨hc', -⟩ | ⟨hc', -⟩ | ⟨rfl, -⟩ | ⟨rfl, -⟩ | ⟨rfl, -⟩ | rfl | rfl | ⟨u, rfl⟩ := exec_shape i
  · exact h
  all_goals simp_all [opClass]

theorem exec_of_opClass_token {i : Instr} (hc : opClass i = .token) :
    ∃ a run, tokenAddr i = some a ∧ ∀ s, exec i s = tokenGate a run s := by
  obtain ⟨hc', -⟩ | ⟨-, h⟩ | ⟨hc', -⟩ | ⟨rfl, -⟩ | ⟨rfl, -⟩ | ⟨rfl, -⟩ | rfl | rfl | ⟨u, rfl⟩ := exec_shape i
  case inr.inl => exact h
  all_goals simp_all [opClass]

theorem exec_of_opClass_mainLoop {i : Instr} (hc : opClass i = .mainLoop) : ∃ run, ∀ s, exec i s = mainGate run s := by
  obtain ⟨hc', -⟩ | ⟨hc', -⟩ | ⟨-, h⟩ | ⟨rfl, -⟩ | ⟨rfl, -⟩ | ⟨rfl, -⟩ | rfl | rfl | ⟨u, rfl⟩ := exec_shape i
  case inr.inr.inl => exact h
  all_goals simp_all [opClass]

theorem opClass_reset {i : Instr} : opClass i = .reset → i = .busReset := by cases i <;> simp [opClass]
theorem opClass_suspend {i : Instr} : opClass i = .suspend → i = .busSuspend := by cases i <;> simp [opClass]
theorem opClass_resume {i : Instr} : opClass i = .resume → i = .resume := by cases i <;> simp [opClass]
theorem opClass_rxd0 {i : Instr} : opClass i = .rxd0 → i = .rxd0Low := by cases i <;> simp [opClass]
theorem opClass_rxd1 {i : Instr} : opClass i = .rxd1 → i = .rxd1Low := by cases i <;> simp [opClass]
theorem opClass_poll {i : Instr} : opClass i = .poll → ∃ uart, i = .poll uart := by cases i <;> simp [opClass]

/-- A wake event is behind the gate of its source. -/
theorem exec_of_wakeEvent {i : Instr} (hc : opClass i ∈ [OpClass.resume, .rxd0, .rxd1]) :
    ∃ src, ∀ s, exec i s = wakeGate src s := by
  simp only [List.mem_cons, List.not_mem_nil, or_false] at hc
  obtain hc | hc | hc := hc
  · obtain rfl := opClass_resume hc
    exact ⟨_, fun _ => rfl⟩
  · obtain rfl := opClass_rxd0 hc
    exact ⟨_, fun _ => rfl⟩
  · obtain rfl := opClass_rxd1 hc
    exact ⟨_, fun _ => rfl⟩

/-! ### The columns of R124 -/

section
variable {i : Instr} {s : State} (hf : s.fault = none)
include hf

theorem exec_run_noEffect (hp : s.pwr.state = .run) (hc : opClass i ∈ [OpClass.resume, .rxd0, .rxd1, .poll]) :
    exec i s = .next s := by
  by_cases hpoll : opClass i = .poll
  · obtain ⟨uart, rfl⟩ := opClass_poll hpoll
    simp only [exec, execPoll, unlessFaulted_none hf, hp]
  · obtain ⟨src, h⟩ := exec_of_wakeEvent (i := i) (by simpa [hpoll] using hc)
    rw [h, wakeGate_run hf hp]

theorem exec_drainWait_refused (hp : s.pwr.state = .drainWait) (hc : opClass i ∈ [OpClass.setup, .reset, .suspend, .mainLoop]) :
    exec i s = .refused .notEnabled := by
  simp only [List.mem_cons, List.not_mem_nil, or_false] at hc
  obtain hc | hc | hc | hc := hc
  · obtain ⟨run, h⟩ := exec_of_opClass_setup hc
    rw [h, setupGate_drainWait hf hp]
  · obtain rfl := opClass_reset hc
    simp only [exec, execBusReset, unlessFaulted_none hf, hp]
  · obtain rfl := opClass_suspend hc
    simp only [exec, execBusSuspend, unlessFaulted_none hf, hp]
  · obtain ⟨run, h⟩ := exec_of_opClass_mainLoop hc
    rw [h, mainGate_drainWait hf hp]

theorem exec_drainWait_token (hp : s.pwr.state = .drainWait) {a : DevAddr} (hc : opClass i = .token)
    (ha : tokenAddr i = some a) : exec i s = .next (s.respond (if a = s.sess.addr then .nak else .none)) := by
  obtain ⟨b, run, hb, h⟩ := exec_of_opClass_token hc
  obtain rfl : a = b := Option.some.inj (ha.symm.trans hb)
  rw [h, tokenGate_drainWait hf hp]

theorem exec_drainWait_poll (hp : s.pwr.state = .drainWait) (uart : Bool) :
    exec (.poll uart) s = .next (if uart then s else haltNow s) := by
  simp only [exec, execPoll, unlessFaulted_none hf, hp]

theorem exec_halt_noEffect (hp : s.pwr.state = .halt) (hc : opClass i ∈ [OpClass.suspend, .poll]) : exec i s = .next s := by
  simp only [List.mem_cons, List.not_mem_nil, or_false] at hc
  obtain hc | hc := hc
  · obtain rfl := opClass_suspend hc
    simp only [exec, execBusSuspend, unlessFaulted_none hf, hp]
  · obtain ⟨uart, rfl⟩ := opClass_poll hc
    simp only [exec, execPoll, unlessFaulted_none hf, hp]

theorem exec_halt_hostToken (hp : s.pwr.state = .halt) (hc : opClass i ∈ [OpClass.setup, .token]) :
    exec i s = .next ((wake .usb s).respond .none) := by
  simp only [List.mem_cons, List.not_mem_nil, or_false] at hc
  obtain hc | hc := hc
  · obtain ⟨run, h⟩ := exec_of_opClass_setup hc
    rw [h, setupGate_halt hf hp]
  · obtain ⟨a, run, -, h⟩ := exec_of_opClass_token hc
    rw [h, tokenGate_halt hf hp]

end

theorem respond_wake (src : WakeSrc) (h : Response) (s : State) :
    (wake src s).respond h = { wake src s with out := s.out ++ [.response h] } := by
  simp only [State.respond, State.emit, wake_out]

/-- Settles O45: each row of R124 is a gate, and each column what the gates answer in that power state. -/
theorem powerStateGatesEveryOperation : Obligations.PowerStateGatesEveryOperation := by
  intro i s hf
  refine ⟨fun hp => ⟨exec_run_next hf hp i, exec_run_noEffect hf hp⟩, fun hp => ⟨exec_drainWait_refused hf hp, ?_, ?_, ?_⟩,
    fun hp => ⟨?_, exec_halt_noEffect hf hp, ?_, ?_, ?_, ?_, ?_⟩, fun hp => exec_exited hf hp i⟩
  · exact fun a hc ha => exec_drainWait_token hf hp hc ha
  · intro hc
    obtain ⟨src, h⟩ := exec_of_wakeEvent hc
    rw [h, wakeGate_drainWait hf hp]
  · rintro uart rfl
    exact exec_drainWait_poll hf hp uart
  · intro hc
    obtain ⟨run, h⟩ := exec_of_opClass_mainLoop hc
    rw [h, mainGate_halt hf hp]
  · intro hc
    rw [exec_halt_hostToken hf hp hc, respond_wake]
  · intro hc
    obtain rfl := opClass_reset hc
    simp only [exec, execBusReset, unlessFaulted_none hf, hp]
  · intro hc
    obtain rfl := opClass_resume hc
    exact wakeGate_halt hf hp .usb
  · intro hc
    obtain rfl := opClass_rxd0 hc
    exact wakeGate_halt hf hp .rxd0
  · intro hc
    obtain rfl := opClass_rxd1 hc
    exact wakeGate_halt hf hp .rxd1

end Sys2Proof.Machine
end

section
/-! PROOFS, family 30: the control transfers of a host that follows the protocol end idle (O32). Each operation of a script takes one
moment of a transfer to the next. -/

namespace Sys2Proof.Machine
open Sys2Proof

/-! ### Moments of a transfer -/

/-- A moment of a control transfer of the request `q` with the device `a`: its stage, its IN half, and its OUT half, which the
Setup step has armed with toggle 1 (R82). -/
structure TransferAt (a : DevAddr) (q : Byte) (g : Stage) (tx : Half) (s : State) : Prop where
  addressed : Addressed a s
  pendReq : s.ctl.pendReq = q
  stage : s.ctl.stage = g
  tx : s.ep0.tx = tx
  rx : s.ep0.rx = ⟨.ack, .data1⟩

/-- The transfer is over, with the IN toggle `tog` (R108). -/
def TransferOver (tog : Pid) (t : State) : Prop :=
  t.ctl.stage = .idle ∧ t.ep0.tx = ⟨.nak, tog⟩ ∧ t.ep0.rx = ⟨.ack, .data1⟩ ∧ t.ep0.txLen = 0

/-- The script has a last state, and the transfer is over in it. -/
def EndsIdle (script : List Instr) (tog : Pid) (s : State) : Prop :=
  ∃ t, execAll script s = .next t ∧ TransferOver tog t

theorem EndsIdle.cons {i : Instr} {is : List Instr} {tog : Pid} {s t : State} (hx : exec i s = .next t)
    (h : EndsIdle is tog t) : EndsIdle (i :: is) tog s := by
  unfold EndsIdle
  rwa [execAll_cons_next hx]

theorem EndsIdle.append {is js : List Instr} {tog : Pid} {s t : State} (hx : execAll is s = .next t)
    (h : EndsIdle js tog t) : EndsIdle (is ++ js) tog s := by
  unfold EndsIdle
  rwa [execAll_append hx]

theorem EndsIdle.last {i : Instr} {tog : Pid} {s t : State} (hx : exec i s = .next t) (h : TransferOver tog t) :
    EndsIdle [i] tog s := .cons hx ⟨t, rfl, h⟩

/-! ### The Setup stage -/

/-- A handler that answers OK leaves the core addressed and the request pending. -/
theorem RequestResult.addressed_of_ok {i : Instr} {a : DevAddr} {r : SetupRequest} {s : State} {p : SetupResult × State} {n : Nat}
    (h : RequestResult i r s p) (hok : p.1 = .ok n) (ha : Addressed a s) :
    Addressed a p.2 ∧ p.2.ctl.pendReq = s.ctl.pendReq := by
  cases h with
  | feature n d m hm hx hi => simpa [Addressed] using ha
  | exit hi => cases hok
  | _ => exact ⟨ha, rfl⟩

/-- A request that the dispatcher accepts opens its transfer (R79, R82). -/
theorem exec_decodeRequest_ok {a : DevAddr} {r : SetupRequest} {s : State} {n : Nat} (ha : Addressed a s)
    (hok : (dispatchRequest r (prepared r s)).1 = .ok n) :
    ∃ t, exec (decodeRequest a r) s = .next t ∧ TransferAt a r.bRequest (stageAfterOk r) ⟨.ack, .data1⟩ t ∧ t.ep0.txLen = n := by
  obtain ⟨i, hres⟩ := dispatchRequest_result r (prepared r s)
  obtain ⟨ha', hq⟩ := hres.addressed_of_ok (a := a) hok ha
  refine ⟨setupOk n (stageAfterOk r) (dispatchRequest r (prepared r s)).2, ?_, ⟨ha', hq, rfl, rfl, rfl⟩, rfl⟩
  rw [tableRowAndDispatcherAgree, exec_setup_packetBytes, requestGate_addressed ha, acceptedRequest_eq]
  simp only [finishSetup, hok]

/-! ### IN tokens -/

/-- An IN the host acknowledges sends the packet, and the completion finds the transfer where it was: EP0's toggle does not
advance of itself (R74, R76). -/
theorem TransferAt.exec_inEp0 {a : DevAddr} {q : Byte} {g : Stage} {tog : Pid} {s : State}
    (h : TransferAt a q g ⟨.ack, tog⟩ s) :
    ∃ u, exec (.inEp0 a true) s = .next (ep0InComplete u) ∧ TransferAt a q g ⟨.ack, tog⟩ u ∧ u.ep0.txLen = s.ep0.txLen :=
  ⟨sent .ep0 .ep0tx s, inGate_addressed h.addressed (by rw [State.half, h.tx]),
    ⟨h.addressed, h.pendReq, h.stage, h.tx, h.rx⟩, rfl⟩

/-- With a cursor, an IN leaves the transfer where it is, with the other toggle (R105). -/
theorem TransferAt.inEp0_cursor {a : DevAddr} {q : Byte} {tog : Pid} {s : State} (h : TransferAt a q .dataIn ⟨.ack, tog⟩ s)
    (hq : q = 0x06 ∨ q = 0x21) :
    ∃ t, exec (.inEp0 a true) s = .next t ∧ TransferAt a q .dataIn ⟨.ack, flipPid tog⟩ t := by
  obtain ⟨u, hx, hu, -⟩ := h.exec_inEp0
  refine ⟨_, hx, ?_⟩
  rw [ep0InComplete_eq, if_pos (hu.pendReq ▸ hq)]
  exact ⟨hu.addressed, hu.pendReq, by simp [stageAfterIn, hu.stage], by simp [hu.tx], hu.rx⟩

theorem TransferAt.inEp0_cursor_replicate {a : DevAddr} {q : Byte} (hq : q = 0x06 ∨ q = 0x21) (k : Nat) {tog : Pid} {s : State}
    (h : TransferAt a q .dataIn ⟨.ack, tog⟩ s) :
    ∃ t, execAll (List.replicate k (.inEp0 a true)) s = .next t ∧ TransferAt a q .dataIn ⟨.ack, flipPid^[k] tog⟩ t := by
  induction k generalizing s tog with
  | zero => exact ⟨s, rfl, h⟩
  | succ k ih =>
    obtain ⟨t, hx, ht⟩ := h.inEp0_cursor hq
    obtain ⟨u, hxs, hu⟩ := ih ht
    exact ⟨u, by rw [List.replicate_succ, execAll_cons_next hx, hxs], hu⟩

theorem flipPid_iterate (k : Nat) : flipPid^[k] .data1 = if k % 2 = 0 then .data1 else .data0 := by
  induction k with
  | zero => rfl
  | succ k ih =>
    rw [Function.iterate_succ_apply', ih]
    rcases Nat.mod_two_eq_zero_or_one k with h | h <;> simp [Nat.succ_mod_two_eq_one_iff, h, flipPid]

/-- Without a cursor and outside SET_ADDRESS, an IN closes EP0 (R105). -/
theorem TransferAt.inEp0_close {a : DevAddr} {q : Byte} {g : Stage} {tog : Pid} {s : State}
    (h : TransferAt a q g ⟨.ack, tog⟩ s) (hq : ¬ (q = 0x06 ∨ q = 0x21)) (h5 : q ≠ 0x05) :
    ∃ t, exec (.inEp0 a true) s = .next t ∧ TransferAt a q (stageAfterIn g) ⟨.nak, tog⟩ t ∧ t.ep0.txLen = 0 := by
  obtain ⟨u, hx, hu, -⟩ := h.exec_inEp0
  refine ⟨_, hx, ?_⟩
  rw [ep0InComplete_eq, if_neg (hu.pendReq ▸ hq), if_neg (hu.pendReq ▸ h5)]
  exact ⟨⟨hu.addressed, hu.pendReq, by simp [hu.stage], by simp [hu.tx], by simp [hu.rx]⟩, rfl⟩

/-- The IN of SET_ADDRESS latches the address and closes EP0 (R105). -/
theorem TransferAt.inEp0_latch {a : DevAddr} {tog : Pid} {s : State} (h : TransferAt a 0x05 .statusIn ⟨.ack, tog⟩ s)
    (hlen : s.ep0.txLen = 0) : ∃ t, exec (.inEp0 a true) s = .next t ∧ TransferOver tog t := by
  obtain ⟨u, hx, hu, hlen'⟩ := h.exec_inEp0
  refine ⟨_, hx, ?_⟩
  rw [ep0InComplete_eq, if_neg (by simp [hu.pendReq]), if_pos hu.pendReq]
  exact ⟨by simp [stageAfterIn, hu.stage], by simp [hu.tx], by simp [hu.rx], hlen'.trans hlen⟩

/-- The status stage's IN ends every transfer without a cursor (R105). -/
theorem TransferAt.statusIn_endsIdle {a : DevAddr} {q : Byte} {tog : Pid} {s : State}
    (h : TransferAt a q .statusIn ⟨.ack, tog⟩ s) (hlen : s.ep0.txLen = 0) (hq : ¬ (q = 0x06 ∨ q = 0x21)) :
    EndsIdle [.inEp0 a true] tog s := by
  by_cases h5 : q = 0x05
  · subst h5
    obtain ⟨t, hx, ht⟩ := h.inEp0_latch hlen
    exact .last hx ht
  · obtain ⟨t, hx, ht, hlen'⟩ := h.inEp0_close hq h5
    exact .last hx ⟨ht.stage, ht.tx, ht.rx, hlen'⟩

/-! ### OUT tokens -/

/-- The state a completion handler of an EP0 OUT finds: the packet in EP0RX, and acknowledged (R75). -/
def ep0Received (data : List Byte) (s : State) : State := { s with
  mem := s.mem.write .ep0rx 0 data, out := s.out ++ [.response .ack], ep0 := { s.ep0 with rxLen := data.length } }

/-- EP0's OUT toggle does not advance of itself (R76). -/
theorem acceptOut_ep0_eq (pid : Pid) (data : List Byte) (s : State) :
    acceptOut .ep0 .ep0rx ep0OutComplete pid data s = ep0OutComplete (syncOk pid s.ep0.rx) (ep0Received data s) := by
  simp only [acceptOut, advance, autoTog, Bool.false_eq_true, if_false, ite_self]
  rfl

/-- The completion of a DATA1 packet finds the transfer where it was, and the packet in sync. -/
theorem TransferAt.exec_outEp0 {a : DevAddr} {q : Byte} {g : Stage} {tx : Half} {s : State} (h : TransferAt a q g tx s)
    {data : List Byte} (hd : data.length ≤ 64) :
    ∃ u, exec (.outEp0 a .data1 data) s = .next (ep0OutComplete true u) ∧ TransferAt a q g tx u ∧
      u.ep0.rxLen = data.length := by
  refine ⟨ep0Received data s, ?_, ⟨h.addressed, h.pendReq, h.stage, h.tx, h.rx⟩, rfl⟩
  rw [exec, execOutEp0, outGate_addressed h.addressed (by rw [State.half, h.rx]) hd, acceptOut_ep0_eq, h.rx]
  rfl

/-- The status stage's OUT ends a read (R107). -/
theorem TransferAt.statusOut_endsIdle {a : DevAddr} {q : Byte} {tx : Half} {s : State} (h : TransferAt a q .dataIn tx s)
    (hq : q ≠ 0x20) : EndsIdle [.outEp0 a .data1 []] tx.tog s := by
  obtain ⟨u, hx, hu, -⟩ := h.exec_outEp0 (data := []) (Nat.zero_le 64)
  refine .last hx ?_
  rw [ep0OutComplete, if_neg (hu.pendReq ▸ hq), statusOut_eq]
  exact ⟨by simp [hu.stage], by simp [hu.tx], by simp [hu.rx], rfl⟩

/-- The data stage of SET_LINE_CODING, with the seven bytes, arms the status stage (R106). -/
theorem TransferAt.outEp0_lineCoding {a : DevAddr} {tog : Pid} {s : State} (h : TransferAt a 0x20 .dataOut ⟨.ack, tog⟩ s)
    {data : List Byte} (hd : data.length = 7) :
    ∃ t, exec (.outEp0 a .data1 data) s = .next t ∧ TransferAt a 0x20 .statusIn ⟨.ack, tog⟩ t ∧ t.ep0.txLen = 0 := by
  obtain ⟨u, hx, hu, hlen⟩ := h.exec_outEp0 (data := data) (by omega)
  have hcommit : ep0OutComplete true u = commitLineCoding u := by
    simp [ep0OutComplete, lineCodingData, hu.pendReq, hlen, hd, lcLen]
  rw [hcommit] at hx
  exact ⟨_, hx, ⟨hu.addressed, hu.pendReq, by simp [commitLineCoding, hu.stage], by simp [commitLineCoding, hu.tx], hu.rx⟩, rfl⟩

/-! ### Requests without data -/

/-- What the table's row, the dispatcher and R30 say of a request without a data stage. -/
structure NoData (i : Instr) (a : DevAddr) (r : SetupRequest) (s : State) : Prop where
  row : decodeRequest a r = i
  ok : (dispatchRequest r (prepared r s)).1 = .ok 0
  stage : stageAfterOk r = .statusIn
  noCursor : ¬ (r.bRequest = 0x06 ∨ r.bRequest = 0x21)

theorem NoData.endsIdle {i : Instr} {a : DevAddr} {r : SetupRequest} {s : State} (h : NoData i a r s) (ha : Addressed a s) :
    EndsIdle [i, .inEp0 a true] .data1 s := by
  obtain ⟨t, hx, ht, hlen⟩ := exec_decodeRequest_ok ha h.ok
  rw [h.row] at hx
  rw [h.stage] at ht
  exact .cons hx (ht.statusIn_endsIdle hlen h.noCursor)

/-- A well-formed standard row of a request without a data stage, by its code and its handler's answer (R30, R80). -/
theorem NoData.of_standard {i : Instr} {a : DevAddr} {r : SetupRequest} {s : State} (hrow : decodeRequest a r = i)
    (hs : isStandard r = true) (hcode : r.bRequest ∈ ([0x01, 0x03, 0x05, 0x09] : List Byte))
    (hok : (dispatchStandard r (prepared r s)).1 = .ok 0) : NoData i a r s := by
  simp only [List.mem_cons, List.not_mem_nil, or_false] at hcode
  refine ⟨hrow, by rw [dispatchRequest_standard hs, hok], ?_, ?_⟩
  · rcases hcode with h | h | h | h <;> simp [stageAfterOk, hs, h]
  · rcases hcode with h | h | h | h <;> simp [h]

theorem noData_setAddress {a : DevAddr} {r : SetupRequest} (hw : WellFormed (.setAddress a r) = true) (s : State) :
    NoData (.setAddress a r) a r s := by
  have hrow := decodeRequest_of_wellFormed rfl (by simp) hw
  simp only [WellFormed, WellFormed.std, addressValue_eq_decide, Bool.and_eq_true, beq_iff_eq, decide_eq_true_eq] at hw
  obtain ⟨⟨hs, hcode⟩, hvh, hvl⟩ := hw
  refine .of_standard hrow hs (by simp [hcode]) ?_
  simp [dispatchStandard, hcode, handleSetAddress, hvh, Nat.not_lt.2 hvl]

theorem noData_setConfiguration {a : DevAddr} {r : SetupRequest} (hw : WellFormed (.setConfiguration a r) = true) (s : State) :
    NoData (.setConfiguration a r) a r s := by
  have hrow := decodeRequest_of_wellFormed rfl (by simp) hw
  simp only [WellFormed, WellFormed.std, Bool.and_eq_true, beq_iff_eq, decide_eq_true_eq] at hw
  obtain ⟨⟨hs, hcode⟩, hvl⟩ := hw
  refine .of_standard hrow hs (by simp [hcode]) ?_
  simp [dispatchStandard, hcode, handleSetConfiguration, Nat.not_lt.2 hvl]

theorem noData_clearFeatureDevice {a : DevAddr} {r : SetupRequest} (hw : WellFormed (.clearFeatureDevice a r) = true) {s : State}
    (hwake : wakeAdvertised s.par = true) : NoData (.clearFeatureDevice a r) a r s := by
  have hrow := decodeRequest_of_wellFormed rfl (by simp) hw
  simp only [WellFormed, WellFormed.std, deviceFeature_eq_decide, Bool.and_eq_true, beq_iff_eq, decide_eq_true_eq] at hw
  obtain ⟨⟨hs, hcode⟩, hrecip, hsel⟩ := hw
  refine .of_standard hrow hs (by simp [hcode]) ?_
  simp [dispatchStandard, hcode, handleClearFeature_device hrecip, handleClearFeatureDevice, hsel, prepared, hwake]

/-- An endpoint feature request on one of the six indices is accepted (R91, R93). -/
theorem handleEndpointFeature_ok {r : SetupRequest} (hsel : wValue r = 0) (hx : halfOfIndex r.wIndexL ≠ none) (m : Dir → Mode)
    (s : State) : (handleEndpointFeature m r s).1 = .ok 0 := by
  obtain ⟨⟨n, d⟩, hx⟩ := Option.ne_none_iff_exists'.1 hx
  simp [handleEndpointFeature, hsel, hx]

theorem noData_clearFeatureEndpoint {a : DevAddr} {r : SetupRequest} (hw : WellFormed (.clearFeatureEndpoint a r) = true)
    (hx : halfOfIndex r.wIndexL ≠ none) (s : State) : NoData (.clearFeatureEndpoint a r) a r s := by
  have hrow := decodeRequest_of_wellFormed rfl (by simp) hw
  simp only [WellFormed, WellFormed.std, endpointFeature_eq_decide, Bool.and_eq_true, beq_iff_eq, decide_eq_true_eq] at hw
  obtain ⟨⟨hs, hcode⟩, hrecip, hsel⟩ := hw
  refine .of_standard hrow hs (by simp [hcode]) ?_
  simp [dispatchStandard, hcode, handleClearFeature_endpoint hrecip, handleClearFeatureEndpoint, handleEndpointFeature_ok hsel hx]

theorem noData_setFeatureEndpoint {a : DevAddr} {r : SetupRequest} (hw : WellFormed (.setFeatureEndpoint a r) = true)
    (hx : halfOfIndex r.wIndexL ≠ none) (s : State) : NoData (.setFeatureEndpoint a r) a r s := by
  have hrow := decodeRequest_of_wellFormed rfl (by simp) hw
  simp only [WellFormed, WellFormed.std, endpointFeature_eq_decide, Bool.and_eq_true, beq_iff_eq, decide_eq_true_eq] at hw
  obtain ⟨⟨hs, hcode⟩, hrecip, hsel⟩ := hw
  refine .of_standard hrow hs (by simp [hcode]) ?_
  simp [dispatchStandard, hcode, handleSetFeature_endpoint hrecip, handleSetFeatureEndpoint, handleEndpointFeature_ok hsel hx]

/-- The type field and the code of a well-formed row of the non-standard dispatcher (R58). -/
theorem nonstd_fields {r : SetupRequest} {code : Byte} (h : WellFormed.nonstd r code = true) :
    isStandard r = false ∧ r.bRequest = code := by
  simpa [WellFormed.nonstd] using h

theorem noData_setControlLineState {a : DevAddr} {r : SetupRequest} (hw : WellFormed (.setControlLineState a r) = true) (s : State) :
    NoData (.setControlLineState a r) a r s := by
  obtain ⟨hs, hcode⟩ := nonstd_fields hw
  refine ⟨decodeRequest_of_wellFormed rfl (by simp) hw, ?_, by simp [stageAfterOk, hs, hcode], by simp [hcode]⟩
  simp [dispatchRequest_nonStandard hs, dispatchNonStandard, hcode, handleSetControlLineState]

/-! ### Reads -/

/-- A standard read with data enters the data stage (R30). -/
theorem stageAfterOk_standardRead {r : SetupRequest} (hs : isStandard r = true)
    (hcode : r.bRequest = 0x00 ∨ r.bRequest = 0x06 ∨ r.bRequest = 0x08) (hlen : r.wLength ≠ 0) : stageAfterOk r = .dataIn := by
  rw [stageAfterOk, if_neg hlen, if_pos hs, if_pos hcode]

/-- A read without a cursor: one IN closes EP0, and the status stage's OUT ends the transfer. -/
theorem ctrlRead_one_endsIdle {a : DevAddr} {r : SetupRequest} {s : State} {n : Nat} (ha : Addressed a s)
    (hok : (dispatchRequest r (prepared r s)).1 = .ok n) (hs : isStandard r = true) (hcode : r.bRequest = 0x00 ∨ r.bRequest = 0x08)
    (hlen : r.wLength ≠ 0) : EndsIdle (ctrlRead a r 1) .data1 s := by
  obtain ⟨t, hx, ht, -⟩ := exec_decodeRequest_ok ha hok
  have hstage : stageAfterOk r = .dataIn := stageAfterOk_standardRead hs (hcode.imp_right .inr) hlen
  have hq : ¬ (r.bRequest = 0x06 ∨ r.bRequest = 0x21) ∧ r.bRequest ≠ 0x05 ∧ r.bRequest ≠ 0x20 := by
    rcases hcode with h | h <;> simp [h]
  obtain ⟨hcursor, h5, h20⟩ := hq
  rw [hstage] at ht
  obtain ⟨u, hxu, hu, -⟩ := ht.inEp0_close hcursor h5
  exact .cons hx (.cons hxu (hu.statusOut_endsIdle h20))

/-- A read with a cursor: every IN flips the toggle, and the status stage's OUT ends the transfer. -/
theorem ctrlRead_cursor_endsIdle {a : DevAddr} {r : SetupRequest} {s : State} {n : Nat} (ha : Addressed a s)
    (hok : (dispatchRequest r (prepared r s)).1 = .ok n) (hstage : stageAfterOk r = .dataIn)
    (hq : r.bRequest = 0x06 ∨ r.bRequest = 0x21) (k : Nat) :
    EndsIdle (ctrlRead a r k) (if k % 2 = 0 then .data1 else .data0) s := by
  obtain ⟨t, hx, ht, -⟩ := exec_decodeRequest_ok ha hok
  rw [hstage] at ht
  obtain ⟨u, hxu, hu⟩ := ht.inEp0_cursor_replicate hq k
  have h20 : r.bRequest ≠ 0x20 := by rcases hq with h | h <;> simp [h]
  rw [← flipPid_iterate]
  exact .cons hx (.append hxu (hu.statusOut_endsIdle h20))

/-- A descriptor the core has is answered (R96). -/
theorem handleGetDescriptor_ok {r : SetupRequest} {s : State} (h : descriptorSrc s.par r ≠ none) :
    ∃ n, (handleGetDescriptor r s).1 = .ok n := by
  obtain ⟨src, h⟩ := Option.ne_none_iff_exists'.1 h
  simp only [handleGetDescriptor, h]
  exact ⟨_, rfl⟩

theorem getDescriptor_endsIdle {a : DevAddr} {r : SetupRequest} {s : State} (ha : Addressed a s) (hs : isStandard r = true)
    (hcode : r.bRequest = 0x06) (hsrc : descriptorSrc s.par r ≠ none) (hlen : r.wLength ≠ 0) (k : Nat) :
    EndsIdle (ctrlRead a r k) (if k % 2 = 0 then .data1 else .data0) s := by
  obtain ⟨n, hok⟩ := handleGetDescriptor_ok (s := prepared r s) hsrc
  refine ctrlRead_cursor_endsIdle (n := n) ha ?_ (stageAfterOk_standardRead hs (.inr (.inl hcode)) hlen) (.inl hcode) k
  simp [dispatchRequest_standard hs, dispatchStandard, hcode, hok]

theorem getLineCoding_endsIdle {a : DevAddr} {r : SetupRequest} {s : State} (ha : Addressed a s) (hs : isStandard r = false)
    (hcode : r.bRequest = 0x21) (hlen : r.wLength ≠ 0) (k : Nat) :
    EndsIdle (ctrlRead a r k) (if k % 2 = 0 then .data1 else .data0) s := by
  have hstage : stageAfterOk r = .dataIn := by rw [stageAfterOk, if_neg hlen, if_neg (by simp [hs]), if_pos hcode]
  have hstart : dispatchRequest r (prepared r s) = startCursor r .lc (prepared r s) := by
    simp [dispatchRequest_nonStandard hs, dispatchNonStandard, hcode, handleGetLineCoding]
  exact ctrlRead_cursor_endsIdle ha (congrArg Prod.fst hstart) hstage (.inr hcode) k

/-! ### The write -/

theorem setLineCoding_endsIdle {a : DevAddr} {r : SetupRequest} {s : State} {bytes : List Byte} (ha : Addressed a s)
    (hw : WellFormed (.setLineCoding a r) = true) (hlen : r.wLength ≠ 0) (hbytes : bytes.length = 7) :
    EndsIdle (ctrlWrite a r bytes) .data1 s := by
  obtain ⟨hs, hcode⟩ := nonstd_fields hw
  have hok : (dispatchRequest r (prepared r s)).1 = .ok 0 := by
    simp [dispatchRequest_nonStandard hs, dispatchNonStandard, hcode, handleSetLineCoding]
  have hstage : stageAfterOk r = .dataOut := by
    rw [stageAfterOk, if_neg hlen]
    simp [hs, hcode]
  obtain ⟨t, hx, ht, -⟩ := exec_decodeRequest_ok ha hok
  rw [hcode, hstage] at ht
  obtain ⟨u, hxu, hu, hlen'⟩ := ht.outEp0_lineCoding hbytes
  exact .cons hx (.cons hxu (hu.statusIn_endsIdle hlen' (by simp)))

/-- Settles O32: each script is its transfer's moments, one after the other. -/
theorem transfersEndIdle : Obligations.TransfersEndIdle := by
  intro a r s ha
  refine ⟨fun i hw hi => ?_, fun hw hlen => ?_, fun k hi hlen => ?_, fun bytes hw hlen hbytes => ?_⟩
  · have hno : NoData i a r s := by
      obtain rfl | rfl | rfl | ⟨rfl, hwake⟩ | ⟨rfl | rfl, hx⟩ := hi
      · exact noData_setAddress hw s
      · exact noData_setConfiguration hw s
      · exact noData_setControlLineState hw s
      · exact noData_clearFeatureDevice hw hwake
      · exact noData_clearFeatureEndpoint hw hx s
      · exact noData_setFeatureEndpoint hw hx s
    exact hno.endsIdle ha
  · simp only [WellFormed, WellFormed.std, Bool.and_eq_true, beq_iff_eq] at hw
    obtain ⟨hs, hcode⟩ | ⟨hs, hcode⟩ := hw
    · have hok : dispatchRequest r (prepared r s) = handleGetStatus r (prepared r s) := by
        simp [dispatchRequest_standard hs, dispatchStandard, hcode]
      exact ctrlRead_one_endsIdle ha (congrArg Prod.fst hok) hs (.inl hcode) hlen
    · have hok : dispatchRequest r (prepared r s) = handleGetConfiguration r (prepared r s) := by
        simp [dispatchRequest_standard hs, dispatchStandard, hcode]
      exact ctrlRead_one_endsIdle ha (congrArg Prod.fst hok) hs (.inr hcode) hlen
  · obtain ⟨hs, hcode, hsrc⟩ | ⟨hs, hcode⟩ := hi
    · exact getDescriptor_endsIdle ha hs hcode hsrc hlen k
    · exact getLineCoding_endsIdle ha hs hcode hlen k
  · exact setLineCoding_endsIdle ha hw (by simp [hlen]) hbytes

end Sys2Proof.Machine
end

section
/-! PROOFS, family 40: what a host token is answered before its endpoint takes part in it: the address filter (O7), the host
contract (O8), a half that does not ACK (O9), a lost ACK (O10). -/

namespace Sys2Proof.Machine
open Sys2Proof

/-! ### The address filter (R72) -/

section
variable {a : DevAddr} {s : State} (ha : a ≠ s.sess.addr)
include ha

theorem setupTransaction_foreign (data : List Byte) : setupTransaction a data s = s.respond .none := if_pos ha

theorem inTransaction_foreign (n : EpNum) (sp : Space) (f : State → State) (acks : Bool) :
    inTransaction n sp f a acks s = s.respond .none := if_pos ha

theorem outTransaction_foreign (n : EpNum) (sp : Space) (f : Bool → State → State) (pid : Pid) (data : List Byte) :
    outTransaction n sp f a pid data s = s.respond .none := if_pos ha

theorem undeclaredToken_foreign : undeclaredToken a s = s.respond .none := if_pos ha

/-- A request row is filtered like the SETUP that carries it. -/
theorem exec_request_foreign {i : Instr} {r : SetupRequest} (hr : requestOf i = some (a, r)) (hs : ∀ b d, i ≠ .setup b d)
    (hrun : Running s) : exec i s = .next (s.respond .none) := by
  obtain ⟨f, hf, -⟩ := exec_request hr hs
  rw [hf, setupGate_running hrun, requestTransaction_foreign ha]

end

/-- Settles O7: in RUN every host token comes to its transaction, and each transaction filters the address first. -/
theorem foreignTokenChangesNothing : Obligations.ForeignTokenChangesNothing := by
  intro i a s htok hrun ha
  change exec i s = .next (s.respond .none)
  cases i <;> cases htok
  case setup data => rw [exec, execSetup, setupGate_running hrun, setupTransaction_foreign ha]
  case setupUndeclaredEp ep data => rw [exec, execSetupUndeclaredEp, setupGate_running hrun, undeclaredToken_foreign ha]
  case inEp0 acks => rw [exec, execInEp0, tokenGate_running hrun, inTransaction_foreign ha]
  case inEp1 acks => rw [exec, execInEp1, tokenGate_running hrun, inTransaction_foreign ha]
  case inEp2 acks => rw [exec, execInEp2, tokenGate_running hrun, inTransaction_foreign ha]
  case inUndeclaredEp ep acks => rw [exec, execInUndeclaredEp, tokenGate_running hrun, undeclaredToken_foreign ha]
  case outEp0 pid data => rw [exec, execOutEp0, tokenGate_running hrun, outTransaction_foreign ha]
  case outEp2 pid data => rw [exec, execOutEp2, tokenGate_running hrun, outTransaction_foreign ha]
  case outUndeclaredEp ep pid data => rw [exec, execOutUndeclaredEp, tokenGate_running hrun, undeclaredToken_foreign ha]
  all_goals exact exec_request_foreign ha rfl (fun _ _ => by simp) hrun

/-! ### The host contract (R73) -/

section
variable {a : DevAddr} {s : State} (ha : a = s.sess.addr)
include ha

theorem undeclaredToken_addressed : undeclaredToken a s = s.raise .hostContract := if_neg (not_not_intro ha)

theorem setupTransaction_oversize {data : List Byte} (hd : data.length > 64) :
    setupTransaction a data s = s.raise .hostContract :=
  (if_neg (not_not_intro ha)).trans (if_pos hd)

theorem outTransaction_oversize {data : List Byte} (hd : data.length > 64) (n : EpNum) (sp : Space) (f : Bool → State → State)
    (pid : Pid) : outTransaction n sp f a pid data s = s.raise .hostContract :=
  (if_neg (not_not_intro ha)).trans (if_pos hd)

end

/-- Settles O8: an addressed token passes the filter, and the checks of R73 come before the mode of the half. -/
theorem hostContractBreachRaisesTheFault : Obligations.HostContractBreachRaisesTheFault := by
  intro a s h
  have hrun := h.running
  obtain ⟨-, -, ha⟩ := h
  refine ⟨fun ep acks _ _ _ => ?_, fun ep pid data _ _ => ?_, fun ep data _ => ?_,
    fun data hd => ⟨?_, fun pid => ?_, fun pid => ?_⟩⟩
  · rw [exec, execInUndeclaredEp, tokenGate_running hrun, undeclaredToken_addressed ha, State.raise]
  · rw [exec, execOutUndeclaredEp, tokenGate_running hrun, undeclaredToken_addressed ha, State.raise]
  · rw [exec, execSetupUndeclaredEp, setupGate_running hrun, undeclaredToken_addressed ha, State.raise]
  · rw [exec, execSetup, setupGate_running hrun, setupTransaction_oversize ha hd, State.raise]
  · rw [exec, execOutEp0, tokenGate_running hrun, outTransaction_oversize ha hd, State.raise]
  · rw [exec, execOutEp2, tokenGate_running hrun, outTransaction_oversize ha hd, State.raise]

/-! ### Handshakes of the halves (R74, R75) -/

section
variable {a : DevAddr} {s : State} {n : EpNum} {m : Mode} {h : Response} (ha : Addressed a s)
  (hm : m = .nak ∧ h = .nak ∨ m = .stall ∧ h = .stall)
include ha hm

/-- An addressed IN to a half that NAKs or STALLs is answered by the mode alone. -/
theorem inGate_unready (hmode : (s.half n .tx).mode = m) {sp : Space} {f : State → State} {acks : Bool} :
    tokenGate a (inTransaction n sp f a acks) s = .next (s.respond h) := by
  rw [tokenGate_running ha.running, inTransaction, if_neg (not_not_intro ha.2.2), hmode]
  obtain ⟨rfl, rfl⟩ | ⟨rfl, rfl⟩ := hm <;> rfl

/-- An addressed OUT to a half that NAKs or STALLs is answered by the mode alone. -/
theorem outGate_unready (hmode : (s.half n .rx).mode = m) {sp : Space} {f : Bool → State → State} {pid : Pid}
    {data : List Byte} (hd : data.length ≤ 64) : tokenGate a (outTransaction n sp f a pid data) s = .next (s.respond h) := by
  rw [tokenGate_running ha.running, outTransaction, if_neg (not_not_intro ha.2.2), if_neg (Nat.not_lt.2 hd), hmode]
  obtain ⟨rfl, rfl⟩ | ⟨rfl, rfl⟩ := hm <;> rfl

end

/-- Settles O9: each declared half, at its own token. -/
theorem nakAndStallAnswersChangeNothing : Obligations.NakAndStallAnswersChangeNothing := by
  intro a s acks pid data m h ha hd hm
  exact ⟨fun hmode => inGate_unready (n := .ep0) ha hm hmode, fun hmode => inGate_unready (n := .ep1) ha hm hmode,
    fun hmode => inGate_unready (n := .ep2) ha hm hmode, fun hmode => outGate_unready (n := .ep0) ha hm hmode hd,
    fun hmode => outGate_unready (n := .ep2) ha hm hmode hd⟩

/-- Settles O10: without the ACK no completion runs and no toggle advances. -/
theorem lostAckLeavesThePacketArmed : Obligations.LostAckLeavesThePacketArmed := by
  intro a s ha
  exact ⟨inGate_addressed (n := .ep0) (acks := false) ha, inGate_addressed (n := .ep1) (acks := false) ha,
    inGate_addressed (n := .ep2) (acks := false) ha⟩

end Sys2Proof.Machine
end

section
/-! PROOFS, family 40: SET_ADDRESS over its transfer (O19), and the backpressure of a bulk-OUT packet (O39). -/

namespace Sys2Proof.Machine
open Sys2Proof

/-! ### SET_ADDRESS -/

/-- A well-formed SET_ADDRESS carries the request code 5 and an address (R57, R95). -/
theorem setAddress_fields {a : DevAddr} {r : SetupRequest} (hw : WellFormed (.setAddress a r) = true) :
    r.bRequest = 0x05 ∧ r.wValueH = 0 ∧ r.wValueL.toNat ≤ 127 := by
  simp only [WellFormed, WellFormed.std, addressValue_eq_decide, Bool.and_eq_true, beq_iff_eq, decide_eq_true_eq] at hw
  obtain ⟨⟨-, hcode⟩, hvalue⟩ := hw
  exact ⟨hcode, hvalue⟩

/-- The state a SET_ADDRESS leaves: the token acknowledged, the address staged and the status stage armed (R79, R95). -/
def addressStaged (r : SetupRequest) (s : State) : State :=
  { statusArmed (s.mem.write .ep0rx 0 (packetBytes r)) r .statusIn s with
    sess := { s.sess with pendAddr := r.wValueL.setWidth 7 } }

theorem exec_setAddress {a : DevAddr} {r : SetupRequest} {s : State} (hw : WellFormed (.setAddress a r) = true)
    (ha : Addressed a s) : exec (.setAddress a r) s = .next (addressStaged r s) := by
  obtain ⟨-, hvh, hvl⟩ := setAddress_fields hw
  have hok : handleSetAddress r (prepared r s) =
      (.ok 0, { prepared r s with sess := { s.sess with pendAddr := r.wValueL.setWidth 7 } }) :=
    if_neg (not_or.2 ⟨not_not_intro hvh, Nat.not_lt.2 hvl⟩)
  rw [exec, execSetAddress, requestGate_addressed ha, acceptedRequest_eq, hok, finishSetup,
    (noData_setAddress hw s).stage]
  rfl

/-- The acknowledged IN of a SET_ADDRESS transfer sends the armed packet, makes the staged address the address, and ends the
status stage (R74, R105). -/
theorem exec_inEp0_setAddress {a : DevAddr} {s : State} (ha : Addressed a s) (hm : s.ep0.tx.mode = .ack)
    (hq : s.ctl.pendReq = 0x05) : exec (.inEp0 a true) s = .next { sent .ep0 .ep0tx s with
      sess := { s.sess with addr := s.sess.pendAddr },
      ep0 := { s.ep0 with tx := ⟨.nak, s.ep0.tx.tog⟩, rx := ⟨.ack, s.ep0.rx.tog⟩ },
      ctl := { s.ctl with stage := stageAfterIn s.ctl.stage } } := by
  have hq' : (sent .ep0 .ep0tx s).ctl.pendReq = 0x05 := hq
  have hx : exec (.inEp0 a true) s = .next (ep0InComplete (sent .ep0 .ep0tx s)) := inGate_addressed (n := .ep0) ha hm
  rw [hx, ep0InComplete_eq, if_neg (by simp [hq']), if_pos hq']
  rfl

/-- Settles O19: the request stages the address, an IN without the ACK leaves the transfer as it is, and the acknowledged one
latches the address; from then on the filter stops every other. -/
theorem addressLatchesAtTheStatusStage : Obligations.AddressLatchesAtTheStatusStage := by
  intro a b r s hw ha hb
  obtain ⟨hcode, -⟩ := setAddress_fields hw
  have hsetup := exec_setAddress hw ha
  have hlost : exec (.inEp0 a false) (addressStaged r s) = .next (sent .ep0 .ep0tx (addressStaged r s)) :=
    (lostAckLeavesThePacketArmed a (addressStaged r s) ha).1 rfl
  have hlatch := exec_inEp0_setAddress (a := a) (s := sent .ep0 .ep0tx (addressStaged r s)) ha rfl hcode
  refine ⟨⟨_, (execAll_cons_next hsetup).trans (execAll_cons_next hlost), ha.2.2.symm⟩,
    ⟨_, (execAll_cons_next hsetup).trans ((execAll_cons_next hlost).trans (execAll_cons_next hlatch)), ?_, rfl, ?_,
      fun c hc => ?_⟩⟩
  · simp [sent, addressStaged, hb]
  · simp [sent, addressStaged, statusArmed, ep0Ok, State.half, State.txLen, State.memReadN]
  · refine foreignTokenChangesNothing (.inEp0 c true) c _ rfl ha.running ?_
    simpa [sent, addressStaged, hb] using hc

/-! ### The backpressure of a bulk-OUT packet -/

/-- After `k` ticks, of the packet `data` the first `k` bytes are delivered, on top of the outputs `before`; the others wait in EP2RX,
and the OUT half NAKs as long as one does (R111, R112, R113). -/
structure DeliveredAfter (a : DevAddr) (data : List Byte) (before : List Event) (k : Nat) (s : State) : Prop where
  addressed : Addressed a s
  buffer : ∀ x (hx : x < data.length), s.memRead .ep2rx x = data[x]
  rx : s.rx = ⟨data.length - k, min k data.length⟩
  mode : s.ep2.rx.mode = if k < data.length then .nak else .ack
  out : s.out = before ++ (data.take k).map .byteReceived

/-- A tick's TX step plays no part in the delivery (R118). -/
theorem DeliveredAfter.txStep {a : DevAddr} {data : List Byte} {before : List Event} {k : Nat} {s : State}
    (h : DeliveredAfter a data before k s) : DeliveredAfter a data before k (txStep s) := by
  obtain ⟨hf, hpwr, hsess, -, hrx, hhalf, hout, hbuf⟩ := txStep_frame s
  exact ⟨by simpa only [Addressed, hf, hpwr, hsess] using h.addressed, fun x hx => (hbuf x).trans (h.buffer x hx),
    hrx.trans h.rx, by rw [hhalf, h.mode], hout.trans h.out⟩

/-- The RX step delivers the next byte, if one waits (R112). -/
theorem DeliveredAfter.rxStep {a : DevAddr} {data : List Byte} {before : List Event} {k : Nat} {s : State}
    (h : DeliveredAfter a data before k s) : DeliveredAfter a data before (k + 1) (rxStep s) := by
  rw [rxStep_eq, h.rx]
  by_cases hk : k < data.length
  · rw [if_neg (by simp only; omega)]
    refine ⟨h.addressed, h.buffer, ?_, ?_, ?_⟩
    · simp only [RxCounter.mk.injEq]
      omega
    · have hlast : data.length - k = 1 ↔ ¬ k + 1 < data.length := by omega
      simp only [h.mode, if_pos hk, hlast, ite_not]
    · simp only [h.out, Nat.min_eq_left hk.le, h.buffer k hk, List.append_assoc, ← List.take_append_getElem hk, List.map_append,
        List.map_cons, List.map_nil]
  · rw [if_pos (by simp only; omega)]
    refine ⟨h.addressed, h.buffer, ?_, ?_, ?_⟩
    · rw [h.rx, RxCounter.mk.injEq]
      omega
    · rw [h.mode, if_neg hk, if_neg (by omega)]
    · rw [h.out, List.take_of_length_le (by omega), List.take_of_length_le (by omega)]

theorem DeliveredAfter.exec_tick {a : DevAddr} {data : List Byte} {before : List Event} {k : Nat} {s : State}
    (h : DeliveredAfter a data before k s) : ∃ t, exec .tick s = .next t ∧ DeliveredAfter a data before (k + 1) t :=
  ⟨_, Machine.exec_tick h.addressed.running, h.rxStep.txStep⟩

theorem DeliveredAfter.exec_ticks {a : DevAddr} {data : List Byte} {before : List Event} (n : Nat) {k : Nat} {s : State}
    (h : DeliveredAfter a data before k s) :
    ∃ t, execAll (List.replicate n .tick) s = .next t ∧ DeliveredAfter a data before (k + n) t := by
  induction n generalizing k s with
  | zero => exact ⟨s, rfl, h⟩
  | succ n ih =>
    obtain ⟨t, hx, ht⟩ := h.exec_tick
    obtain ⟨u, hxs, hu⟩ := ih ht
    exact ⟨u, by rw [List.replicate_succ, execAll_cons_next hx, hxs], by rwa [Nat.add_right_comm] at hu⟩

/-- An OUT packet in sync is taken and the half begins to NAK (R75, R111). -/
theorem exec_outEp2_accepted {a : DevAddr} {pid : Pid} {data : List Byte} {s : State} (ha : Addressed a s) (hpos : 1 ≤ data.length)
    (hd : data.length ≤ 64) (hrx : s.ep2.rx = ⟨.ack, pid⟩) :
    ∃ t, exec (.outEp2 a pid data) s = .next t ∧ DeliveredAfter a data (s.out ++ [.response .ack]) 0 t := by
  refine ⟨_, outGate_addressed (n := .ep2) ha (by rw [State.half, hrx]) hd, ?_⟩
  rw [acceptOut_ep2_eq, if_pos (by rw [hrx])]
  refine ⟨ha, fun x hx => ?_, by simp, by simp [Nat.pos_iff_ne_zero.1 hpos], by simp⟩
  have hread := memRead_write (sp := .ep2rx) rfl 0 data s .ep2rx x
  rw [if_pos (by simpa using hx)] at hread
  exact hread.trans (by simp [hx])

/-- Settles O39: the packet is taken, each tick delivers one byte, and while one waits the half NAKs. -/
theorem backpressureLastsExactlyNTicks : Obligations.BackpressureLastsExactlyNTicks := by
  intro a pid data s ha hpos hd hrx _
  obtain ⟨t, hx, ht⟩ := exec_outEp2_accepted ha hpos hd hrx
  refine ⟨t, hx, ht.mode.trans (if_pos hpos), fun k => ?_⟩
  obtain ⟨u, hxs, hu⟩ := ht.exec_ticks k
  rw [Nat.zero_add] at hu
  refine ⟨u, hxs, by simp [hu.out], hu.mode, fun hk pid' data' hd' => ?_⟩
  exact outGate_unready (n := .ep2) hu.addressed (.inl ⟨rfl, rfl⟩) (hu.mode.trans (if_pos hk)) hd'

end Sys2Proof.Machine
end

section
/-! PROOFS, family 40: the writers of a half and, with them, of a response mode (O54). -/

namespace Sys2Proof.Machine
open Sys2Proof

/-- The operations that may write the half (n, d) (R78): EP0's halves by a SETUP, the deferred SetupOK(0) at the wake
and the completions of EP0; the halves of EP1 and EP2 by their completions and the tick; a half of EP1, EP2 or EP3 by the feature
request that names it; and every half by a bus reset. -/
inductive HalfWriter (i : Instr) (s : State) : EpNum → Dir → Prop where
  | setup (d : Dir) (hc : opClass i = .setup) : HalfWriter i s .ep0 d
  | wake (d : Dir) (hp : s.pwr.state = .halt) (ho : s.pwr.origin = .feature) : HalfWriter i s .ep0 d
  | in0 (d : Dir) (a : DevAddr) (hi : i = .inEp0 a true) : HalfWriter i s .ep0 d
  | out0 (d : Dir) (a : DevAddr) (pid : Pid) (data : List Byte) (hi : i = .outEp0 a pid data) : HalfWriter i s .ep0 d
  | in1 (a : DevAddr) (hi : i = .inEp1 a true) : HalfWriter i s .ep1 .tx
  | in2 (a : DevAddr) (hi : i = .inEp2 a true) : HalfWriter i s .ep2 .tx
  | out2 (a : DevAddr) (pid : Pid) (data : List Byte) (hi : i = .outEp2 a pid data) : HalfWriter i s .ep2 .rx
  | tick (d : Dir) (hi : i = .tick) : HalfWriter i s .ep2 d
  | feature (n : EpNum) (d : Dir) (hn : n ≠ .ep0) (hf : featureOn i n d = true) : HalfWriter i s n d
  | reset (n : EpNum) (d : Dir) (hi : i = .busReset) : HalfWriter i s n d

/-! ### The halves each completion leaves alone -/

/-- An EP0 IN completion writes EP0's halves alone (R105). -/
theorem half_ep0InComplete {n : EpNum} (hn : n ≠ .ep0) (d : Dir) (s : State) :
    (ep0InComplete (sent .ep0 .ep0tx s)).half n d = s.half n d := by
  rw [ep0InComplete_eq]
  split_ifs <;> exact half_congr (by rfl) (by rfl) (by rfl) hn d

/-- An accepted OUT to EP0 writes EP0's halves alone (R106, R107). -/
theorem half_acceptOut_ep0 {n : EpNum} (hn : n ≠ .ep0) (d : Dir) (pid : Pid) (data : List Byte) (s : State) :
    (acceptOut .ep0 .ep0rx ep0OutComplete pid data s).half n d = s.half n d := by
  obtain ⟨u, rfl, -, -, h1, h2, h3, -⟩ := acceptOut_ep0_frame pid data s
  exact half_congr h1 h2 h3 hn d

/-- An accepted OUT to EP2 writes its OUT half alone (R75, R111). -/
theorem half_acceptOut_ep2 {n : EpNum} {d : Dir} (he : (n, d) ≠ (.ep2, .rx)) (pid : Pid) (data : List Byte) (s : State) :
    (acceptOut .ep2 .ep2rx ep2OutComplete pid data s).half n d = s.half n d := by
  rw [acceptOut_ep2_eq]
  split_ifs <;> cases n <;> cases d <;> first | rfl | exact absurd rfl he

/-- A tick writes EP2's halves alone (R112, R115). -/
theorem half_tick {n : EpNum} (hn : n ≠ .ep2) (d : Dir) (s : State) : (txStep (rxStep s)).half n d = s.half n d := by
  rw [txStep_eq, rxStep_eq]
  split_ifs <;> cases n <;> cases d <;> first | rfl | exact absurd rfl hn

/-- Every way to a next state leaves a half alone, or is one of the half's writers. -/
theorem halfWriter_of_exec {i : Instr} {s t : State} {n : EpNum} {d : Dir} (hw : WellFormed i = true) (hx : exec i s = .next t)
    (hne : t.half n d ≠ s.half n d) : HalfWriter i s n d := by
  cases exec_next hx with
  | request a r f hp hr hf =>
    by_cases hn : n = .ep0
    · subst hn
      exact .setup d (opClass_of_requestOf hr)
    · rw [acceptedRequest_eq, half_finishSetup hn] at hne
      obtain ⟨hidx, b, hi⟩ := (hf _).feature_of_half_ne hne
      exact .feature n d hn (featureOn_of_wellFormed hw hi hidx)
  | packet a r hp hi => exact absurd hi (ne_setup_of_requestOf (p := (a, r)) (by simp [hi, requestOf]) hw _ _)
  | malformed a data hp hi hl h8 =>
    obtain rfl : n = .ep0 := by_contra fun hn => hne (half_congr (by rfl) (by rfl) (by rfl) hn d)
    exact .setup d (by rw [hi]; rfl)
  | in0 a hp hi hm =>
    obtain rfl : n = .ep0 := by_contra fun hn => hne (half_ep0InComplete hn d s)
    exact .in0 d a hi
  | in1 a hp hi hm =>
    obtain ⟨rfl, rfl⟩ : n = .ep1 ∧ d = .tx := by_contra fun he => hne (half_ep1InComplete (by simpa using he))
    exact .in1 a hi
  | in2 a hp hi hm =>
    obtain ⟨rfl, rfl⟩ : n = .ep2 ∧ d = .tx := by_contra fun he => hne (half_ep2InComplete (by simpa using he))
    exact .in2 a hi
  | out0 a pid data hp hi hl hm =>
    obtain rfl : n = .ep0 := by_contra fun hn => hne (half_acceptOut_ep0 hn d pid data s)
    exact .out0 d a pid data hi
  | out2 a pid data hp hi hl hm =>
    obtain ⟨rfl, rfl⟩ : n = .ep2 ∧ d = .rx := by_contra fun he => hne (half_acceptOut_ep2 (by simpa using he) pid data s)
    exact .out2 a pid data hi
  | tick hp hi =>
    obtain rfl : n = .ep2 := by_contra fun hn => hne (half_tick hn d s)
    exact .tick d hi
  | reset hp hi => exact .reset n d hi
  | wakeReset hp hi => exact .reset n d hi
  | wakeToken hp hi =>
    obtain ⟨rfl, ho⟩ := wake_writes_ep0 hne
    exact .wake d hp ho
  | wakeEvent src hp hi =>
    obtain ⟨rfl, ho⟩ := wake_writes_ep0 hne
    exact .wake d hp ho
  | _ => exact absurd rfl hne

/-- Settles O54: a mode that changes is a half that changes, and R78 lists each writer of the half. -/
theorem modesHaveNoOtherWriters : Obligations.ModesHaveNoOtherWriters := by
  intro i s t n d hw hx hne
  cases halfWriter_of_exec hw hx fun he => hne (by rw [he]) with
  | setup _ hc => exact .inl (by simp [hc])
  | wake _ hp ho => exact .inr (.inl ⟨hp, ho⟩)
  | in0 _ a hi => exact .inr (.inr (.inl ⟨a, hi⟩))
  | out0 _ a pid data hi => exact .inr (.inr (.inr ⟨a, pid, data, hi⟩))
  | in1 a hi => exact .inl ⟨a, hi⟩
  | in2 a hi => exact .inr (.inl ⟨a, hi⟩)
  | out2 a pid data hi => exact .inr (.inl ⟨a, pid, data, hi⟩)
  | tick _ hi => cases d <;> exact .inl hi
  | feature _ _ hn hf =>
    cases n with
    | ep0 => exact absurd rfl hn
    | _ => cases d <;> simp [hf]
  | reset _ _ hi => cases n <;> cases d <;> simp [hi, opClass]

end Sys2Proof.Machine
end

section
/-! PROOFS, family 41: a SETUP that fails (O11, O12), and the request that leaves for the bootloader (O26). -/

namespace Sys2Proof.Machine
open Sys2Proof

/-! ### Malformed packets -/

/-- An addressed packet within 64 bytes that is no Setup packet is accepted and fails (R79). -/
theorem setupTransaction_malformed {a : DevAddr} {data : List Byte} {s : State} (ha : a = s.sess.addr) (hd : data.length ≤ 64)
    (h8 : data.length ≠ 8) : setupTransaction a data s = setupFail .malformedRequest (acceptSetup data s) := by
  rw [setupTransaction, if_neg (not_not_intro ha), if_neg (Nat.not_lt.2 hd), packetOf_eq_none.2 h8]

/-- Settles O11: in RUN the SETUP comes to the acceptance of the packet, which decodes only 8 bytes. -/
theorem setupOfWrongLengthFailsAsMalformed : Obligations.SetupOfWrongLengthFailsAsMalformed := by
  intro a data s ha hd
  refine ⟨fun h8 => ⟨s.mem.write .ep0rx 0 data, ?_, fun sp x => ?_⟩, fun _ => exec_run_next ha.1 ha.2.1 _⟩
  · rw [exec, execSetup, setupGate_running ha.running, setupTransaction_malformed ha.2.2 hd h8]
    rfl
  · simpa using memRead_write (sp := .ep0rx) rfl 0 data s sp x

/-! ### Rejected requests -/

/-- Settles O12: each of the rows has the handler that always fails. -/
theorem rejectedRequestsFailAsUnsupported : Obligations.RejectedRequestsFailAsUnsupported := by
  intro i a r s ha hi
  have hx : exec i s = setupGate (requestTransaction a r handleUnsupported) s := by
    obtain rfl | rfl | rfl | rfl | rfl | rfl | rfl := hi <;> rfl
  exact requestFails_of_handler ha hx rfl

/-! ### The bootloader request -/

/-- The state the bootloader request leaves: the token acknowledged, the packet decoded, no response applied to EP0, and the core
gone (R79, R103). -/
def leftForBootloader (r : SetupRequest) (s : State) : State := { s with
  mem := s.mem.write .ep0rx 0 (packetBytes r), out := s.out ++ [.response .ack, .bootloaderJump],
  ep0 := { s.ep0 with rxLen := 8 }, ctl := ⟨some r, r.bRequest, .empty, s.ctl.stage⟩, pwr := { s.pwr with state := .exited } }

theorem exec_resetDeviceToBootloader {a : DevAddr} {s : State} (ha : Addressed a s) (r : SetupRequest) :
    exec (.resetDeviceToBootloader a r) s = .next (leftForBootloader r s) := by
  rw [exec, execResetDeviceToBootloader, requestGate_addressed ha, acceptedRequest_eq]
  simp [finishSetup, handleBootloader, prepared, leftForBootloader, State.emit]

/-- Settles O26: the handler answers NO_RETURN, which applies no response to EP0, and in EXITED no operation has a step. -/
theorem bootloaderRequestEndsTheRun : Obligations.BootloaderRequestEndsTheRun := by
  intro a r s hw ha
  obtain ⟨-, hcode⟩ := nonstd_fields hw
  refine ⟨s.mem.write .ep0rx 0 (packetBytes r), packetLands_write r s, ?_, exec_exited ha.1 rfl⟩
  rw [exec_resetDeviceToBootloader ha, leftForBootloader, hcode]

end Sys2Proof.Machine
end

section
/-! PROOFS, family 41: the data stage of a read with a cursor (O30). The bytes a cursor has still to send say what every IN of
the stage sends; each load takes 64 of them, or all. -/

namespace Sys2Proof.Machine
open Sys2Proof

/-! ### The bytes a cursor has still to send -/

/-- Reading a space inside its table gives that piece of the table. -/
theorem memReadN_table {s : State} {sp : Space} {x n : Nat} (h : x + n ≤ (s.table sp).length) :
    s.memReadN sp x n = ((s.table sp).drop x).take n := by
  refine List.ext_getElem (by simp; omega) fun i hi _ => ?_
  rw [memReadN_length] at hi
  have hx : x + i < (s.table sp).length := by omega
  simp [State.memReadN, memRead_table hx, hx]

/-- The tables depend on the parameters and the line coding alone. -/
theorem table_congr {s t : State} (hp : t.par = s.par) (hl : t.lc = s.lc) (sp : Space) : t.table sp = s.table sp := by
  unfold State.table
  rw [hp, hl]

/-- The cursor stands in the table of the space `sp` with the bytes `bs` still to send (R84, R85). -/
structure CursorAt (sp : Space) (bs : List Byte) (s : State) : Prop where
  space : spaceOf s.ctl.cur.src = some sp
  within : s.ctl.cur.off + s.ctl.cur.remaining ≤ (s.table sp).length
  bytes : ((s.table sp).drop s.ctl.cur.off).take s.ctl.cur.remaining = bs

theorem CursorAt.congr {sp : Space} {bs : List Byte} {s t : State} (h : CursorAt sp bs s) (hc : t.ctl.cur = s.ctl.cur)
    (hp : t.par = s.par) (hl : t.lc = s.lc) : CursorAt sp bs t := by
  have htbl : t.table sp = s.table sp := table_congr hp hl sp
  exact ⟨hc ▸ h.space, by rw [hc, htbl]; exact h.within, by rw [hc, htbl]; exact h.bytes⟩

/-- A cursor opened over a whole table has its first wLength bytes to send (R84). -/
theorem cursorAt_cursorOpen {r : SetupRequest} {src : CursorSrc} {sp : Space} {s : State} (hsp : spaceOf src = some sp) :
    CursorAt sp ((s.table sp).take r.wLength.toNat) (cursorOpen r src (tableLen src s) s) := by
  have htbl : (cursorOpen r src (tableLen src s) s).table sp = s.table sp := table_congr rfl rfl sp
  have hlen : tableLen src s = (s.table sp).length := by simp [tableLen, hsp]
  refine ⟨hsp, ?_, ?_⟩ <;> rw [htbl]
  · simp [cursorOpen, hlen]
  · simp [cursorOpen, hlen, List.take_eq_take_iff]

section
variable {sp : Space} {bs : List Byte} {s : State} (h : CursorAt sp bs s)
include h

/-- The cursor's next packet is the first 64 bytes it has to send, or all of them (R85). -/
theorem CursorAt.cursorBytes_eq : cursorBytes (cursorLen s) s = bs.take 64 := by
  have hlen := cursorLen_le_remaining s
  have hwithin := h.within
  simp only [cursorBytes, h.space]
  rw [memReadN_table (by omega), ← h.bytes, List.take_take, Nat.min_comm, cursorLen]

/-- A load leaves the cursor with the bytes after that packet (R85). -/
theorem CursorAt.load : CursorAt sp (bs.drop 64) (cursorLoad s) := by
  have htbl : (cursorLoad s).table sp = s.table sp := table_congr rfl rfl sp
  have hlen := cursorLen_le_remaining s
  have hwithin := h.within
  refine ⟨h.space, ?_, ?_⟩ <;> rw [htbl, cursorLoad_ctl]
  · simp only
    omega
  · rw [← h.bytes, List.drop_take, List.drop_drop]
    simp only [cursorLen, maxPkt]
    rcases Nat.le_total s.ctl.cur.remaining 64 with hle | hle <;> simp [hle]

/-- A load puts the packet in EP0TX (R85). -/
theorem CursorAt.memReadN_load : (cursorLoad s).memReadN .ep0tx 0 (cursorLen s) = bs.take 64 := by
  have hlen : (cursorBytes (cursorLen s) s).length = cursorLen s := cursorBytes_length h.space _
  have hread := memReadN_write_same (sp := .ep0tx) rfl 0 (cursorBytes (cursorLen s) s) s
  rw [hlen, h.cursorBytes_eq] at hread
  rw [← hread, ← h.cursorBytes_eq]
  exact memReadN_congr rfl rfl rfl _ _ _

end

/-! ### The data stage -/

/-- The answer to the `j`-th IN the host acknowledges: the `j`-th 64-byte piece, DATA1 and DATA0 in turn. -/
def pieceAnswer (bs : List Byte) (j : Nat) : Event := .response (.data (flipPid^[j] .data1) ((bs.drop (64 * j)).take 64))

/-- The data stage that sends `bs`, a part of the table of `sp`, after `k` acknowledged INs, on top of the outputs `before`: the
next piece is armed, and the cursor has the bytes after it. -/
structure SendsAfter (a : DevAddr) (sp : Space) (bs : List Byte) (before : List Event) (k : Nat) (s : State) : Prop where
  addressed : Addressed a s
  pendReq : s.ctl.pendReq = 0x06 ∨ s.ctl.pendReq = 0x21
  tx : s.ep0.tx = ⟨.ack, flipPid^[k] .data1⟩
  armed : s.memReadN .ep0tx 0 s.ep0.txLen = (bs.drop (64 * k)).take 64
  cursor : CursorAt sp (bs.drop (64 * (k + 1))) s
  out : s.out = before ++ (List.range k).map (pieceAnswer bs)

/-- A request whose handler starts a cursor opens the data stage (R79, R82, R84, R85). -/
theorem exec_decodeRequest_startCursor {a : DevAddr} {r : SetupRequest} {src : CursorSrc} {sp : Space} {s : State}
    (ha : Addressed a s) (hsp : spaceOf src = some sp) (hq : r.bRequest = 0x06 ∨ r.bRequest = 0x21)
    (hstart : dispatchRequest r (prepared r s) = startCursor r src (prepared r s)) :
    ∃ t, exec (decodeRequest a r) s = .next t ∧
      SendsAfter a sp ((s.table sp).take r.wLength.toNat) (s.out ++ [.response .ack]) 0 t := by
  let u := cursorOpen r src (tableLen src (prepared r s)) (prepared r s)
  have hopen : CursorAt sp ((s.table sp).take r.wLength.toNat) u := cursorAt_cursorOpen (s := prepared r s) hsp
  refine ⟨setupOk (cursorLen u) (stageAfterOk r) (cursorLoad u), ?_, ha, hq, rfl, ?_, hopen.load.congr rfl rfl rfl,
    (List.append_nil _).symm⟩
  · rw [tableRowAndDispatcherAgree, exec_setup_packetBytes, requestGate_addressed ha, acceptedRequest_eq, hstart]
    rfl
  · exact (memReadN_congr rfl rfl rfl _ _ _).trans hopen.memReadN_load

section
variable {a : DevAddr} {sp : Space} {bs : List Byte} {before : List Event}

/-- An acknowledged IN sends the armed piece and arms the next one (R74, R105). -/
theorem SendsAfter.exec_inEp0 {k : Nat} {s : State} (h : SendsAfter a sp bs before k s) :
    ∃ t, exec (.inEp0 a true) s = .next t ∧ SendsAfter a sp bs before (k + 1) t := by
  have hx : exec (.inEp0 a true) s = .next (ep0InComplete (sent .ep0 .ep0tx s)) :=
    inGate_addressed (n := .ep0) h.addressed (by rw [State.half, h.tx])
  have hq : (sent .ep0 .ep0tx s).ctl.pendReq = 0x06 ∨ (sent .ep0 .ep0tx s).ctl.pendReq = 0x21 := h.pendReq
  have hcursor : CursorAt sp (bs.drop (64 * (k + 1))) (sent .ep0 .ep0tx s) := h.cursor.congr rfl rfl rfl
  have hload : CursorAt sp (bs.drop (64 * (k + 1 + 1))) (cursorLoad (sent .ep0 .ep0tx s)) := by
    rw [Nat.mul_succ, ← List.drop_drop]
    exact hcursor.load
  refine ⟨_, hx, ?_⟩
  rw [ep0InComplete_eq, if_pos hq]
  refine ⟨h.addressed, hq, ?_, ?_, hload.congr rfl rfl rfl, ?_⟩
  · simp [sent, h.tx, Function.iterate_succ_apply']
  · exact (memReadN_congr rfl rfl rfl _ _ _).trans hcursor.memReadN_load
  · simp [sent, State.half, State.txLen, h.tx, h.armed, h.out, List.range_succ, pieceAnswer]

theorem SendsAfter.exec_inEp0_replicate (n : Nat) {k : Nat} {s : State} (h : SendsAfter a sp bs before k s) :
    ∃ t, execAll (List.replicate n (.inEp0 a true)) s = .next t ∧ SendsAfter a sp bs before (k + n) t := by
  induction n generalizing k s with
  | zero => exact ⟨s, rfl, h⟩
  | succ n ih =>
    obtain ⟨t, hx, ht⟩ := h.exec_inEp0
    obtain ⟨u, hxs, hu⟩ := ih ht
    exact ⟨u, by rw [List.replicate_succ, execAll_cons_next hx, hxs], by rwa [Nat.add_right_comm] at hu⟩

end

/-! ### The reads with a cursor -/

/-- A GET_DESCRIPTOR of a table the core has starts a cursor over it (R59, R96). -/
theorem dispatchRequest_getDescriptor {r : SetupRequest} {src : CursorSrc} {s : State} (hs : isStandard r = true)
    (hcode : r.bRequest = 0x06) (hsrc : descriptorSrc s.par r = some src) : dispatchRequest r s = startCursor r src s := by
  simp [dispatchRequest_standard hs, dispatchStandard, hcode, handleGetDescriptor, hsrc]

/-- A GET_LINE_CODING starts a cursor over the line coding (R101). -/
theorem dispatchRequest_getLineCoding {r : SetupRequest} (hs : isStandard r = false) (hcode : r.bRequest = 0x21) (s : State) :
    dispatchRequest r s = startCursor r .lc s := by
  simp [dispatchRequest_nonStandard hs, dispatchNonStandard, hcode, handleGetLineCoding]

/-- The table a descriptor type and index select (R59, R96). -/
theorem descriptorSrc_table {r : SetupRequest} {s : State} {tbl : List Byte}
    (h : (r.wValueH = 1 ∧ tbl = s.par.devDesc) ∨ (r.wValueH = 2 ∧ tbl = cfgDesc s.par) ∨
      (r.wValueH = 3 ∧ strDesc s.par r.wValueL = some tbl)) :
    ∃ src sp, descriptorSrc s.par r = some src ∧ spaceOf src = some sp ∧ s.table sp = tbl := by
  obtain ⟨hv, rfl⟩ | ⟨hv, rfl⟩ | ⟨hv, hstr⟩ := h
  · exact ⟨.dev, .dev, by simp [descriptorSrc, hv], rfl, rfl⟩
  · exact ⟨.cfg, .cfg, by simp [descriptorSrc, hv], rfl, rfl⟩
  · exact ⟨.str r.wValueL, .str r.wValueL, by simp [descriptorSrc, hv, hstr], rfl, by simp [State.table, hstr]⟩

/-- Settles O30: the request starts a cursor over its table, and then each acknowledged IN sends the next piece. -/
theorem dataStageSendsTheClippedTable : Obligations.DataStageSendsTheClippedTable := by
  intro a r s tbl ha hreq k
  obtain ⟨src, sp, hsp, rfl, hq, hstart⟩ : ∃ src sp, spaceOf src = some sp ∧ s.table sp = tbl ∧
      (r.bRequest = 0x06 ∨ r.bRequest = 0x21) ∧ dispatchRequest r (prepared r s) = startCursor r src (prepared r s) := by
    obtain ⟨hs, hcode, htbl⟩ | ⟨hs, hcode, rfl⟩ := hreq
    · obtain ⟨src, sp, hsrc, hsp, htbl⟩ := descriptorSrc_table htbl
      exact ⟨src, sp, hsp, htbl, .inl hcode, dispatchRequest_getDescriptor hs hcode hsrc⟩
    · exact ⟨.lc, .lc, rfl, rfl, .inr hcode, dispatchRequest_getLineCoding hs hcode _⟩
  obtain ⟨t, hx, ht⟩ := exec_decodeRequest_startCursor ha hsp hq hstart
  obtain ⟨u, hxs, hu⟩ := ht.exec_inEp0_replicate k
  refine ⟨u, (execAll_cons_next hx).trans hxs, ?_⟩
  simp only [hu.out, Nat.zero_add, List.append_assoc, List.cons_append, List.nil_append, ← flipPid_iterate]
  rfl

end Sys2Proof.Machine
end

section
/-! PROOFS, family 42: the standard requests that answer or store a value: GET_STATUS (O13), CLEAR_FEATURE of the device (O14),
SET_ADDRESS (O18), GET_DESCRIPTOR (O20), GET_CONFIGURATION (O21), SET_CONFIGURATION (O22). -/

namespace Sys2Proof.Machine
open Sys2Proof

/-! ### A request that is accepted -/

/-- A row whose handler answers OK(n) is taken, and SetupOK(n) is applied to what the handler leaves (R79, R82). -/
theorem exec_request_of_ok {i : Instr} {a : DevAddr} {r : SetupRequest} {f : Handler} {n : Nat} {s u : State}
    (ha : Addressed a s) (hx : exec i s = setupGate (requestTransaction a r f) s) (hf : f r (prepared r s) = (.ok n, u)) :
    exec i s = .next (setupOk n (stageAfterOk r) u) := by
  rw [hx, requestGate_addressed ha, acceptedRequest_eq, hf, finishSetup]

theorem setupOk_prepared (r : SetupRequest) (g : Stage) (s : State) :
    setupOk 0 g (prepared r s) = statusArmed (s.mem.write .ep0rx 0 (packetBytes r)) r g s := rfl

/-- A well-formed standard row carries its request's code and type (R57). -/
theorem std_fields {r : SetupRequest} {code : Byte} (h : WellFormed.std r code = true) :
    isStandard r = true ∧ r.bRequest = code := by
  simpa [WellFormed.std] using h

/-- A standard read enters the data stage when the host asks for data, and else the status stage (R30). -/
theorem stageAfterOk_std_read {r : SetupRequest} {code : Byte} (h : WellFormed.std r code = true)
    (hcode : code = 0x00 ∨ code = 0x06 ∨ code = 0x08) :
    stageAfterOk r = if r.wLength = 0 then .statusIn else .dataIn := by
  obtain ⟨hs, rfl⟩ := std_fields h
  split
  · rename_i hlen
    rw [stageAfterOk, if_pos hlen]
  · rename_i hlen
    exact stageAfterOk_standardRead hs hcode hlen

/-! ### Reads of a few bytes -/

/-- A standard read whose handler writes the bytes `bs` to EP0TX and answers OK(n) arms n bytes (R82, R87, R97). -/
theorem exec_read_of_answer {i : Instr} {a : DevAddr} {r : SetupRequest} {f : Handler} {code : Byte} {n : Nat} {bs : List Byte}
    {b : Nat → Byte} {s : State} (ha : Addressed a s) (hx : exec i s = setupGate (requestTransaction a r f) s)
    (hw : WellFormed.std r code = true) (hcode : code = 0x00 ∨ code = 0x06 ∨ code = 0x08)
    (hf : f r (prepared r s) = (.ok n, (prepared r s).memWrite .ep0tx 0 bs)) (hb : ∀ x, x < bs.length → bs.getD x 0 = b x) :
    ∃ m, exec i s = .next { s with
        mem := m, out := s.out ++ [.response .ack], ep0 := ep0Ok n,
        ctl := ⟨some r, code, .empty, if r.wLength = 0 then .statusIn else .dataIn⟩ } ∧
      packetAndAnswerLand m r bs.length b s := by
  refine ⟨_, ?_, packetAndAnswerLand_write r s bs b hb⟩
  rw [exec_request_of_ok ha hx hf, stageAfterOk_std_read hw hcode, ← (std_fields hw).2]
  rfl

/-- Settles O13: the handler writes two zero bytes, whatever the recipient and wIndex. -/
theorem getStatusArmsTwoZeroBytes : Obligations.GetStatusArmsTwoZeroBytes := by
  intro a r s hw ha
  have hzero (x : Nat) : ([0x00, 0x00] : List Byte).getD x 0 = 0x00 := by
    match x with
    | 0 => rfl
    | 1 => rfl
    | _ + 2 => rfl
  exact exec_read_of_answer (f := handleGetStatus) (bs := [0x00, 0x00]) ha rfl hw (.inl rfl) rfl fun x _ => hzero x

theorem bitByte_eq (b : BitVec 1) : bitByte b = if b = 1 then 0x01 else 0x00 := by
  revert b
  decide

/-- Settles O21: the handler writes the configuration value as one byte. -/
theorem getConfigurationArmsTheValue : Obligations.GetConfigurationArmsTheValue := by
  intro a r s hw ha
  refine exec_read_of_answer (f := handleGetConfiguration) (bs := [bitByte s.sess.cfg]) ha rfl hw (.inr (.inr rfl)) rfl
    fun x hx => ?_
  obtain rfl : x = 0 := Nat.lt_one_iff.1 hx
  exact bitByte_eq s.sess.cfg

/-! ### Reads with a cursor -/

/-- A row whose handler opens a cursor over a table sends that table (R84, R85). -/
theorem cursorStarts_of_handler {i : Instr} {a : DevAddr} {r : SetupRequest} {f : Handler} {src : CursorSrc} {sp : Space}
    {s : State} (ha : Addressed a s) (hx : exec i s = setupGate (requestTransaction a r f) s)
    (hf : f r (prepared r s) = startCursor r src (prepared r s)) (hsp : spaceOf src = some sp)
    (hstage : stageAfterOk r = if r.wLength = 0 then .statusIn else .dataIn) : cursorStarts i r src (s.table sp) s := by
  obtain ⟨m, n, rest, hn, hrest, hnext, hland⟩ := startCursor_lands r src sp hsp s hstage
  refine ⟨m, n, rest, hn, hrest, ?_, hland⟩
  rw [hx, requestGate_addressed ha, acceptedRequest_eq, hf, ← hnext]
  rfl

section
variable {i : Instr} {a : DevAddr} {r : SetupRequest} {s : State}
  (ha : Addressed a s) (hx : exec i s = setupGate (requestTransaction a r handleGetDescriptor) s)
include ha hx

/-- GET_DESCRIPTOR of a table the core has sends it (R96). -/
theorem cursorStarts_getDescriptor {src : CursorSrc} {sp : Space} (hw : WellFormed.std r 0x06 = true)
    (hsrc : descriptorSrc s.par r = some src) (hsp : spaceOf src = some sp) : cursorStarts i r src (s.table sp) s :=
  cursorStarts_of_handler ha hx (by simp only [handleGetDescriptor, prepared, hsrc]) hsp
    (stageAfterOk_std_read hw (.inr (.inl rfl)))

/-- GET_DESCRIPTOR of a table the core has not fails (R96). -/
theorem requestFails_getDescriptor (hsrc : descriptorSrc s.par r = none) : requestFails i r .unsupportedRequest s :=
  requestFails_of_handler ha hx (by simp only [handleGetDescriptor, prepared, hsrc])

end

/-- A well-formed GET_DESCRIPTOR row carries the request code 6 and its descriptor type (R57, R59). -/
theorem descriptorRow_fields {r : SetupRequest} {v : Byte} (hw : (WellFormed.std r 0x06 && r.wValueH == v) = true) :
    WellFormed.std r 0x06 = true ∧ r.wValueH = v := by
  simpa using hw

/-- Settles O20: the descriptor type selects the table, and for strings the index. -/
theorem getDescriptorOpensTheSelectedTable : Obligations.GetDescriptorOpensTheSelectedTable := by
  intro a r s ha
  refine ⟨fun hw => ?_, fun hw => ?_, fun tbl hw htbl => ?_, fun hw hnone => ?_, fun _ => requestFails_of_handler ha rfl rfl⟩
  all_goals obtain ⟨hstd, hv⟩ := descriptorRow_fields hw
  · exact cursorStarts_getDescriptor (sp := .dev) ha rfl hstd (by simp [descriptorSrc, hv]) rfl
  · exact cursorStarts_getDescriptor (sp := .cfg) ha rfl hstd (by simp [descriptorSrc, hv]) rfl
  · have htable : s.table (.str r.wValueL) = tbl := by simp [State.table, htbl]
    exact htable ▸ cursorStarts_getDescriptor ha rfl hstd (by simp [descriptorSrc, hv, htbl]) rfl
  · exact requestFails_getDescriptor ha rfl (by simp [descriptorSrc, hv, hnone])

/-! ### Requests without data -/

/-- A well-formed CLEAR_FEATURE_DEVICE carries the selector 1 (R60). -/
theorem clearFeatureDevice_selector {a : DevAddr} {r : SetupRequest} (hw : WellFormed (.clearFeatureDevice a r) = true) :
    wValue r = 1 := by
  simp only [WellFormed, deviceFeature_eq_decide, Bool.and_eq_true, decide_eq_true_eq] at hw
  obtain ⟨-, -, hsel⟩ := hw
  exact hsel

/-- With selector 1, CLEAR_FEATURE of the device asks only whether wake is advertised, and writes nothing (R90). -/
theorem handleClearFeatureDevice_of_selector {r : SetupRequest} (hv : wValue r = 1) (s : State) :
    handleClearFeatureDevice r s = (if wakeAdvertised s.par then .ok 0 else .fail .unsupportedRequest, s) := by
  cases hk : wakeAdvertised s.par <;> simp [handleClearFeatureDevice, hv, hk]

/-- Settles O14: the handler answers OK when wake is advertised and FAIL otherwise; the row for the other selectors has the
handler that always fails. -/
theorem clearDeviceFeatureNeedsAdvertisedWake : Obligations.ClearDeviceFeatureNeedsAdvertisedWake := by
  intro a r s ha
  refine ⟨fun hw hwake => ?_, fun hw hwake => ?_, fun _ _ => requestFails_of_handler ha rfl rfl⟩
  all_goals have hf := handleClearFeatureDevice_of_selector (clearFeatureDevice_selector hw) (prepared r s)
  · rw [show wakeAdvertised (prepared r s).par = true from hwake, if_pos rfl] at hf
    refine ⟨s.mem.write .ep0rx 0 (packetBytes r), ?_, packetLands_write r s⟩
    rw [exec_request_of_ok ha rfl hf, (noData_clearFeatureDevice hw hwake).stage, setupOk_prepared]
  · rw [show wakeAdvertised (prepared r s).par = false from hwake, if_neg (by decide)] at hf
    exact requestFails_of_handler ha rfl hf

/-- Settles O18: what the accepted request leaves is `addressStaged`; the row for the other values has the handler that always
fails. -/
theorem setAddressStagesTheAddress : Obligations.SetAddressStagesTheAddress := by
  intro a r s ha
  exact ⟨fun hw => ⟨_, packetLands_write r s, exec_setAddress hw ha⟩, fun _ => requestFails_of_handler ha rfl rfl⟩

/-- The one bit that SET_CONFIGURATION keeps of a value 0 or 1 is the value (R98). -/
theorem setWidth_one_of_le_one {v : Byte} (h : v.toNat ≤ 1) : v.setWidth 1 = if v = 1 then 1 else 0 := by
  obtain rfl | rfl : v = 0 ∨ v = 1 := by bv_omega
  · rfl
  · rfl

/-- Settles O22: the handler stores the value; the row for the other values has the handler that always fails. -/
theorem setConfigurationStoresTheValue : Obligations.SetConfigurationStoresTheValue := by
  intro a r s ha
  refine ⟨fun hw => ⟨_, packetLands_write r s, ?_⟩, fun _ => requestFails_of_handler ha rfl rfl⟩
  have hvalue : r.wValueL.toNat ≤ 1 := by simpa using (Bool.and_eq_true_iff.1 hw).2
  have hf : handleSetConfiguration r (prepared r s) =
      (.ok 0, { prepared r s with sess := { s.sess with cfg := r.wValueL.setWidth 1 } }) := if_neg (Nat.not_lt.2 hvalue)
  rw [exec_request_of_ok ha rfl hf, (noData_setConfiguration hw s).stage, setWidth_one_of_le_one hvalue]
  rfl

end Sys2Proof.Machine
end

section
/-! PROOFS, family 42: the endpoint feature requests (O15, O16), and two of them in a row (O17). -/

namespace Sys2Proof.Machine
open Sys2Proof

/-! ### One endpoint feature request -/

/-- The mode CLEAR_FEATURE(ENDPOINT_HALT) leaves a half in (R91). -/
def clearedMode : Dir → Mode
  | .tx => .nak
  | .rx => .ack

/-- The mode SET_FEATURE(ENDPOINT_HALT) leaves a half in (R93). -/
def haltedMode : Dir → Mode := fun _ => .stall

/-- The row `i` is an endpoint feature request with the packet `r` that writes the modes `mode` (R60, R91, R93). -/
structure EndpointFeature (i : Instr) (a : DevAddr) (r : SetupRequest) (mode : Dir → Mode) : Prop where
  exec_eq : ∀ s, exec i s = setupGate (requestTransaction a r (handleEndpointFeature mode)) s
  standard : isStandard r = true
  code : r.bRequest = 0x01 ∨ r.bRequest = 0x03
  selector : wValue r = 0

theorem endpointFeature_clear {a : DevAddr} {r : SetupRequest} (hw : WellFormed (.clearFeatureEndpoint a r) = true) :
    EndpointFeature (.clearFeatureEndpoint a r) a r clearedMode := by
  simp only [WellFormed, endpointFeature_eq_decide, Bool.and_eq_true, decide_eq_true_eq] at hw
  obtain ⟨hstd, -, hsel⟩ := hw
  obtain ⟨hs, hcode⟩ := std_fields hstd
  exact ⟨fun _ => rfl, hs, .inl hcode, hsel⟩

theorem endpointFeature_set {a : DevAddr} {r : SetupRequest} (hw : WellFormed (.setFeatureEndpoint a r) = true) :
    EndpointFeature (.setFeatureEndpoint a r) a r haltedMode := by
  simp only [WellFormed, endpointFeature_eq_decide, Bool.and_eq_true, decide_eq_true_eq] at hw
  obtain ⟨hstd, -, hsel⟩ := hw
  obtain ⟨hs, hcode⟩ := std_fields hstd
  exact ⟨fun _ => rfl, hs, .inr hcode, hsel⟩

/-- No endpoint index names a half of EP0 (R61, R89). -/
theorem ne_ep0_of_halfOfIndex {x : Byte} {n : EpNum} {d : Dir} (h : halfOfIndex x = some (n, d)) : n ≠ .ep0 := by
  rintro rfl
  unfold halfOfIndex at h
  split_ifs at h <;> cases h

theorem halfOfIndex_eq_none {x : Byte} (h : x ∉ ([0x81, 0x82, 0x83, 0x01, 0x02, 0x03] : List Byte)) : halfOfIndex x = none := by
  simp only [List.mem_cons, List.not_mem_nil, or_false, not_or] at h
  obtain ⟨h81, h82, h83, h01, h02, h03⟩ := h
  simp only [halfOfIndex, h81, h82, h83, h01, h02, h03, if_false]

/-- SetupOK writes EP0, which an endpoint feature request leaves alone (R82, R91, R93). -/
theorem setupOk_setHalf {n : EpNum} (hn : n ≠ .ep0) (d : Dir) (h : Half) (k : Nat) (g : Stage) (s : State) :
    setupOk k g (s.setHalf n d h) = (setupOk k g s).setHalf n d h := by
  cases n with
  | ep0 => exact absurd rfl hn
  | _ => cases d <;> rfl

/-- The state an accepted endpoint feature request leaves: the status stage armed, and the named half written with toggle 0
(R79, R91, R93). -/
def featureApplied (r : SetupRequest) (n : EpNum) (d : Dir) (m : Mode) (s : State) : State :=
  (statusArmed (s.mem.write .ep0rx 0 (packetBytes r)) r .statusIn s).setHalf n d ⟨m, .data0⟩

section
variable {i : Instr} {a : DevAddr} {r : SetupRequest} {mode : Dir → Mode} {s : State} {n : EpNum} {d : Dir}

theorem EndpointFeature.stage (h : EndpointFeature i a r mode) : stageAfterOk r = .statusIn := by
  rcases h.code with hcode | hcode <;> simp [stageAfterOk, h.standard, hcode]

/-- An endpoint feature request on one of the six indices writes the half it names (R91, R93). -/
theorem EndpointFeature.exec_next (h : EndpointFeature i a r mode) (ha : Addressed a s) (hx : halfOfIndex r.wIndexL = some (n, d)) :
    exec i s = .next (featureApplied r n d (mode d) s) := by
  have hf : handleEndpointFeature mode r (prepared r s) = (.ok 0, (prepared r s).setHalf n d ⟨mode d, .data0⟩) := by
    simp [handleEndpointFeature, h.selector, hx]
  rw [exec_request_of_ok ha (h.exec_eq s) hf, setupOk_setHalf (ne_ep0_of_halfOfIndex hx), h.stage, setupOk_prepared,
    featureApplied]

theorem EndpointFeature.lands (h : EndpointFeature i a r mode) (ha : Addressed a s) (hx : halfOfIndex r.wIndexL = some (n, d)) :
    ∃ m, packetLands m r s ∧ exec i s = .next ((statusArmed m r .statusIn s).setHalf n d ⟨mode d, .data0⟩) :=
  ⟨_, packetLands_write r s, h.exec_next ha hx⟩

/-- An endpoint feature request on another index fails (R61, R91, R93). -/
theorem EndpointFeature.fails (h : EndpointFeature i a r mode) (ha : Addressed a s) (hx : halfOfIndex r.wIndexL = none) :
    requestFails i r .unsupportedEndpoint s :=
  requestFails_of_handler ha (h.exec_eq s) (by simp [handleEndpointFeature, h.selector, hx])

end

/-- Settles O15: each index names its half, and the request writes that half. -/
theorem clearEndpointHaltResetsTheNamedHalf : Obligations.ClearEndpointHaltResetsTheNamedHalf := by
  intro a r s ha ok i
  have lands (n : EpNum) (d : Dir) (hw : ok) := (endpointFeature_clear hw).lands (n := n) (d := d) ha
  exact ⟨fun hw hx => lands .ep1 .tx hw (by rw [hx]; rfl), fun hw hx => lands .ep2 .tx hw (by rw [hx]; rfl),
    fun hw hx => lands .ep3 .tx hw (by rw [hx]; rfl), fun hw hx => lands .ep1 .rx hw (by rw [hx]; rfl),
    fun hw hx => lands .ep2 .rx hw (by rw [hx]; rfl), fun hw hx => lands .ep3 .rx hw (by rw [hx]; rfl),
    fun hw hx => (endpointFeature_clear hw).fails ha (halfOfIndex_eq_none hx), fun _ _ => requestFails_of_handler ha rfl rfl⟩

/-- Settles O16: each index names its half, and the request writes that half. -/
theorem setEndpointHaltStallsTheNamedHalf : Obligations.SetEndpointHaltStallsTheNamedHalf := by
  intro a r s ha ok i
  have lands (n : EpNum) (d : Dir) (hw : ok) := (endpointFeature_set hw).lands (n := n) (d := d) ha
  exact ⟨fun hw hx => lands .ep1 .tx hw (by rw [hx]; rfl), fun hw hx => lands .ep2 .tx hw (by rw [hx]; rfl),
    fun hw hx => lands .ep3 .tx hw (by rw [hx]; rfl), fun hw hx => lands .ep1 .rx hw (by rw [hx]; rfl),
    fun hw hx => lands .ep2 .rx hw (by rw [hx]; rfl), fun hw hx => lands .ep3 .rx hw (by rw [hx]; rfl),
    fun hw hx => (endpointFeature_set hw).fails ha (halfOfIndex_eq_none hx), fun _ _ => requestFails_of_handler ha rfl rfl⟩

/-! ### Two in a row -/

/-- Between `s` and `t` the core has kept running, and of the session, the bridge, the line coding and the halves of EP1, EP2 and
EP3 nothing has changed but the half (n, d). -/
structure OnlyHalfWritten (n : EpNum) (d : Dir) (s t : State) : Prop where
  fault : t.fault = s.fault
  pwr : t.pwr = s.pwr
  sess : t.sess = s.sess
  tx : t.tx = s.tx
  rx : t.rx = s.rx
  lc : t.lc = s.lc
  others : ∀ n' d', n' ≠ .ep0 → (n', d') ≠ (n, d) → t.half n' d' = s.half n' d'

theorem OnlyHalfWritten.trans {n : EpNum} {d : Dir} {s t u : State} (h : OnlyHalfWritten n d s t) (h' : OnlyHalfWritten n d t u) :
    OnlyHalfWritten n d s u where
  fault := h'.fault.trans h.fault
  pwr := h'.pwr.trans h.pwr
  sess := h'.sess.trans h.sess
  tx := h'.tx.trans h.tx
  rx := h'.rx.trans h.rx
  lc := h'.lc.trans h.lc
  others := fun n' d' hn hne => (h'.others n' d' hn hne).trans (h.others n' d' hn hne)

theorem OnlyHalfWritten.addressed {n : EpNum} {d : Dir} {a : DevAddr} {s t : State} (h : OnlyHalfWritten n d s t)
    (ha : Addressed a s) : Addressed a t := by
  simpa only [Addressed, h.fault, h.pwr, h.sess] using ha

theorem onlyHalfWritten_featureApplied (r : SetupRequest) (n : EpNum) (d : Dir) (m : Mode) (s : State) :
    OnlyHalfWritten n d s (featureApplied r n d m s) where
  fault := setHalf_fault ..
  pwr := setHalf_pwr ..
  sess := setHalf_sess ..
  tx := setHalf_tx ..
  rx := setHalf_rx ..
  lc := setHalf_lc ..
  others := fun _ d' hn hne => (half_setHalf_other _ _ hne).trans (half_congr (by rfl) (by rfl) (by rfl) hn d')

@[simp] theorem sent_ctl (n : EpNum) (sp : Space) (s : State) : (sent n sp s).ctl = s.ctl := rfl

/-- The status IN of a request that is neither SET_ADDRESS nor a read with a cursor closes EP0 and writes no other endpoint (R105). -/
theorem onlyHalfWritten_statusIn {u : State} (hcursor : ¬ (u.ctl.pendReq = 0x06 ∨ u.ctl.pendReq = 0x21))
    (haddr : u.ctl.pendReq ≠ 0x05) (n : EpNum) (d : Dir) : OnlyHalfWritten n d u (ep0InComplete (sent .ep0 .ep0tx u)) := by
  rw [ep0InComplete_eq, sent_ctl, if_neg hcursor, if_neg haddr]
  exact ⟨rfl, rfl, rfl, rfl, rfl, rfl, fun _ d' hn _ => half_congr (by rfl) (by rfl) (by rfl) hn d'⟩

/-- An endpoint feature request with its status IN writes the half it names, with toggle 0, and no other (R91, R93, R105). -/
theorem EndpointFeature.transfer {i : Instr} {a : DevAddr} {r : SetupRequest} {mode : Dir → Mode} {s : State} {n : EpNum} {d : Dir}
    (h : EndpointFeature i a r mode) (ha : Addressed a s) (hx : halfOfIndex r.wIndexL = some (n, d)) :
    ∃ t, execAll [i, .inEp0 a true] s = .next t ∧ OnlyHalfWritten n d s t ∧ (t.half n d).tog = .data0 := by
  have hn : n ≠ .ep0 := ne_ep0_of_halfOfIndex hx
  let u := featureApplied r n d (mode d) s
  have hu : OnlyHalfWritten n d s u := onlyHalfWritten_featureApplied r n d (mode d) s
  have hq : u.ctl.pendReq = r.bRequest := congrArg Ctl.pendReq (setHalf_ctl ..)
  have hmode : (u.half .ep0 .tx).mode = .ack := congrArg Half.mode (half_setHalf_other _ _ (by simp [hn.symm]))
  have hin : exec (.inEp0 a true) u = .next (ep0InComplete (sent .ep0 .ep0tx u)) :=
    inGate_addressed (n := .ep0) (hu.addressed ha) hmode
  refine ⟨_, (execAll_cons_next (h.exec_next ha hx)).trans (execAll_cons_next hin), hu.trans ?_, ?_⟩
  · refine onlyHalfWritten_statusIn ?_ ?_ n d <;> rw [hq] <;> rcases h.code with hcode | hcode <;> simp [hcode]
  · rw [half_ep0InComplete hn]
    simp [u, featureApplied]

/-- A row named by R91 or R93 is an endpoint feature request. -/
theorem exists_endpointFeature {i : Instr} {a : DevAddr} {r : SetupRequest}
    (hi : i = .clearFeatureEndpoint a r ∨ i = .setFeatureEndpoint a r) (hw : WellFormed i = true) :
    ∃ mode, EndpointFeature i a r mode := by
  obtain rfl | rfl := hi
  · exact ⟨_, endpointFeature_clear hw⟩
  · exact ⟨_, endpointFeature_set hw⟩

/-- Settles O17: the transfer of each request writes the one half, and the second transfer leaves its toggle 0. -/
theorem repeatedEndpointFeatureTouchesOneHalf : Obligations.RepeatedEndpointFeatureTouchesOneHalf := by
  intro a r r' s i i' n d hi hi' hw hw' ha hx hx'
  obtain ⟨mode, h⟩ := exists_endpointFeature hi hw
  obtain ⟨mode', h'⟩ := exists_endpointFeature hi' hw'
  obtain ⟨t, hxt, ht, -⟩ := h.transfer ha hx
  obtain ⟨u, hxu, hu, htog⟩ := h'.transfer (ht.addressed ha) hx'
  have hall := ht.trans hu
  exact ⟨u, (execAll_append (js := [i', .inEp0 a true]) hxt).trans hxu, htog, hall.tx, hall.rx, hall.sess, hall.lc, hall.others⟩

end Sys2Proof.Machine
end

section
/-! PROOFS, family 42: what may change the marks the ISR and the main loop share on EP2, and with it the two states that nothing but
a feature request or a bus reset ends: a bulk-OUT half left NAK by an empty packet (O59), and a busy flag whose IN half is not ACK
(O60). -/

namespace Sys2Proof.Machine
open Sys2Proof

/-! ### The writers of EP2, of the receive counter and of `busy` -/

/-- The ways in which a well-formed operation `i` may take EP2, the receive counter and `busy` of `s` to those of `t` (R91, R93,
R110, R111, R118, R144). -/
inductive BulkNext (i : Instr) (s t : State) : Prop where
  | kept (hep2 : t.ep2 = s.ep2) (hrx : t.rx = s.rx) (hbusy : t.tx.busy = s.tx.busy)
  | feature (d : Dir) (m : Mode) (hf : featureOn i .ep2 d = true) (hm : d = .tx → m ≠ .ack)
      (hep2 : t.ep2 = (s.setHalf .ep2 d ⟨m, .data0⟩).ep2) (hrx : t.rx = s.rx) (hbusy : t.tx.busy = s.tx.busy)
  | sent (hm : s.ep2.tx.mode = .ack) (hhalf : t.ep2.rx = s.ep2.rx) (hrx : t.rx = s.rx)
  | received (hm : s.ep2.rx.mode = .ack) (hhalf : t.ep2.tx = s.ep2.tx) (hbusy : t.tx.busy = s.tx.busy)
  | tick (ht : t = txStep (rxStep s))
  | reset (hi : i = .busReset)

/-- A write of one half of another endpoint than EP2 leaves EP2 alone. -/
theorem setHalf_ep2_other {n : EpNum} (hn : n ≠ .ep2) (d : Dir) (h : Half) (s : State) : (s.setHalf n d h).ep2 = s.ep2 := by
  cases n with
  | ep2 => exact absurd rfl hn
  | _ => cases d <;> rfl

/-- Of the requests, only an endpoint feature request on a half of EP2 writes there (R91, R93). -/
theorem RequestResult.bulkNext {i : Instr} {r : SetupRequest} {s : State} {p : SetupResult × State}
    (h : RequestResult i r (prepared r s) p) (hw : WellFormed i = true) : BulkNext i s (finishSetup r p) := by
  cases h with
  | feature n d m hm hx hi =>
    obtain ⟨a, hi⟩ := hi
    have hrx : (finishSetup r (.ok 0, (prepared r s).setHalf n d ⟨m, .data0⟩)).rx = s.rx :=
      (finishSetup_rx ..).trans (setHalf_rx ..)
    have htx : (finishSetup r (.ok 0, (prepared r s).setHalf n d ⟨m, .data0⟩)).tx = s.tx :=
      (finishSetup_tx ..).trans (setHalf_tx ..)
    by_cases hn : n = .ep2
    · subst hn
      refine .feature d m (featureOn_of_wellFormed hw hi hx) hm ?_ hrx (by rw [htx])
      cases d <;> rfl
    · exact .kept ((finishSetup_ep2 ..).trans (setHalf_ep2_other hn ..)) hrx (by rw [htx])
  | _ => exact .kept rfl rfl rfl

/-- Every way to a next state, as far as EP2, the receive counter and `busy` are concerned. -/
theorem bulkNext_of_exec {i : Instr} {s t : State} (hw : WellFormed i = true) (hx : exec i s = .next t) : BulkNext i s t := by
  cases exec_next hx with
  | request a r f hp hr hf => exact (hf _).bulkNext hw
  | packet a r hp hi => exact absurd hi (ne_setup_of_requestOf (p := (a, r)) (by simp [hi, requestOf]) hw _ _)
  | in0 a hp hi hm =>
    rw [ep0InComplete_eq]
    split_ifs <;> exact .kept rfl rfl rfl
  | in2 a hp hi hm => exact .sent hm rfl rfl
  | out0 a pid data hp hi hl hm =>
    obtain ⟨u, rfl, -, -, -, hep2, -, htx, hrx, -⟩ := acceptOut_ep0_frame pid data s
    exact .kept hep2 hrx (by rw [htx])
  | out2 a pid data hp hi hl hm =>
    rw [acceptOut_ep2_eq]
    split_ifs <;> exact .received hm rfl rfl
  | tick hp hi => exact .tick rfl
  | reset hp hi => exact .reset hi
  | wakeReset hp hi => exact .reset hi
  | wakeToken hp hi => exact .kept (wake_ep2 .usb s) (wake_rx .usb s) (congrArg TxRing.busy (wake_tx .usb s))
  | wakeEvent src hp hi => exact .kept (wake_ep2 src s) (wake_rx src s) (congrArg TxRing.busy (wake_tx src s))
  | _ => exact .kept rfl rfl rfl

/-! ### A busy flag whose half is not ACK -/

/-- While `busy` is set the TX step arms no packet (R115). -/
theorem txStep_of_busy {s : State} (h : s.tx.busy = true) : (txStep s).tx.busy = true ∧ (txStep s).ep2 = s.ep2 := by
  rw [txStep_eq, if_neg (show ¬ drains s by simp [drains, h])]
  split_ifs
  · exact ⟨h, rfl⟩
  · exact ⟨h, rfl⟩

/-- Settles O60: only a completed IN clears `busy`, which the half's mode does not allow; the TX step, which makes the half ACK,
waits for `busy`; and a feature request leaves an IN half NAK or STALL. -/
theorem busyStaysSetUntilABusReset : Obligations.BusyStaysSetUntilABusReset := by
  intro i s t hw hx hbusy hmode hreset
  cases bulkNext_of_exec hw hx with
  | kept hep2 hrx hb => exact ⟨hb.trans hbusy, by rwa [hep2]⟩
  | feature d m hf hm hep2 hrx hb =>
    refine ⟨hb.trans hbusy, ?_⟩
    rw [hep2]
    cases d with
    | tx => exact hm rfl
    | rx => exact hmode
  | sent hm hhalf hrx => exact absurd hm hmode
  | received hm hhalf hb => exact ⟨hb.trans hbusy, by rwa [hhalf]⟩
  | tick ht =>
    obtain ⟨-, -, -, -, htx, hhalf, -⟩ := rxStep_frame s
    obtain ⟨hb, hep2⟩ := txStep_of_busy (s := rxStep s) (by rwa [htx])
    rw [ht]
    exact ⟨hb, by rwa [hep2, hhalf]⟩
  | reset hi => exact absurd hi hreset

/-! ### A bulk-OUT half that NAKs with no byte to deliver -/

/-- The OUT half of EP2 NAKs and no byte waits to be delivered, which alone would make it ACK (R112, R150). -/
def OutStuck (s : State) : Prop := s.ep2.rx.mode = .nak ∧ s.rx.count = 0

/-- No operation but a feature request on 0x02 and a bus reset ends it: the RX step has nothing to deliver, and the half takes no
packet. -/
theorem OutStuck.of_exec {i : Instr} {s t : State} (h : OutStuck s) (hw : WellFormed i = true) (hx : exec i s = .next t)
    (hfeature : featureOn i .ep2 .rx = false) (hreset : i ≠ .busReset) : OutStuck t := by
  obtain ⟨hmode, hcount⟩ := h
  cases bulkNext_of_exec hw hx with
  | kept hep2 hrx hb => exact ⟨by rw [hep2, hmode], by rw [hrx, hcount]⟩
  | feature d m hf hm hep2 hrx hb =>
    cases d with
    | tx => exact ⟨by rw [hep2]; exact hmode, by rw [hrx, hcount]⟩
    | rx => simp [hfeature] at hf
  | sent hm hhalf hrx => exact ⟨by rw [hhalf, hmode], by rw [hrx, hcount]⟩
  | received hm hhalf hb => simp [hmode] at hm
  | tick ht =>
    obtain ⟨-, -, -, -, hrx, hhalf, -⟩ := txStep_frame s
    rw [ht, rxStep_eq, if_pos hcount]
    exact ⟨by rw [hhalf, hmode], by rw [hrx, hcount]⟩
  | reset hi => exact absurd hi hreset

/-- A tick keeps the core in RUN at its address (R118). -/
theorem Addressed.tick {a : DevAddr} {s : State} (h : Addressed a s) : Addressed a (txStep (rxStep s)) := by
  obtain ⟨hft, hpt, hst, -⟩ := txStep_frame (rxStep s)
  obtain ⟨hfr, hpr, hsr, -⟩ := rxStep_frame s
  simpa only [Addressed, hft, hpt, hst, hfr, hpr, hsr] using h

theorem OutStuck.exec_ticks {a : DevAddr} (k : Nat) {s : State} (h : OutStuck s) (ha : Addressed a s) :
    ∃ t, execAll (List.replicate k .tick) s = .next t ∧ OutStuck t ∧ Addressed a t := by
  induction k generalizing s with
  | zero => exact ⟨s, rfl, h, ha⟩
  | succ k ih =>
    have hx := exec_tick ha.running
    obtain ⟨t, hxs, ht⟩ := ih (h.of_exec (by rfl) hx (by rfl) (by simp)) ha.tick
    exact ⟨t, by rw [List.replicate_succ, execAll_cons_next hx, hxs], ht⟩

/-- An empty OUT packet in sync is taken, and leaves the half NAK with no byte to deliver (R75, R111). -/
theorem exec_outEp2_empty {a : DevAddr} {pid : Pid} {s : State} (ha : Addressed a s) (hrx : s.ep2.rx = ⟨.ack, pid⟩) :
    ∃ t, exec (.outEp2 a pid []) s = .next t ∧ OutStuck t ∧ Addressed a t := by
  refine ⟨_, outGate_addressed (n := .ep2) ha (by rw [State.half, hrx]) (Nat.zero_le 64), ?_⟩
  rw [acceptOut_ep2_eq, if_pos (by rw [hrx])]
  exact ⟨⟨rfl, rfl⟩, ha⟩

/-- A bus reset in RUN (R144). -/
theorem exec_busReset_running {s : State} (h : Running s) : exec .busReset s = .next (busResetNow s) := by
  simp [exec, execBusReset, unlessFaulted, h.1, h.2]

/-- Settles O59: the half stays as `OutStuck` says through every other operation; an empty packet leads there, and each of the two
ways out writes the half. -/
theorem bulkOutZlpLeavesTheHalfStuck : Obligations.BulkOutZlpLeavesTheHalfStuck := by
  refine ⟨fun i s t hw hx hmode hcount hfeature hreset => OutStuck.of_exec ⟨hmode, hcount⟩ hw hx hfeature hreset, ?_⟩
  intro a pid s k ha hrx
  obtain ⟨t, hxt, ht, hat⟩ := exec_outEp2_empty ha hrx
  obtain ⟨u, hxu, ⟨hmode, hcount⟩, hau⟩ := ht.exec_ticks k hat
  refine ⟨u, (execAll_cons_next hxt).trans hxu, hmode, hcount, fun r hw hx => ?_, ⟨_, exec_busReset_running hau.running, rfl⟩⟩
  exact ⟨_, (endpointFeature_clear hw).exec_next (n := .ep2) (d := .rx) hau (by rw [hx]; rfl), rfl⟩

end Sys2Proof.Machine
end

section
/-! PROOFS, family 43: the requests on the line coding: their Setup stages (O24, O25), and the round trip through the record
(O31). -/

namespace Sys2Proof.Machine
open Sys2Proof

/-! ### The Setup stage -/

/-- SET_LINE_CODING waits for its data when the host announces some (R30). -/
theorem stageAfterOk_setLineCoding {r : SetupRequest} (hw : WellFormed.nonstd r 0x20 = true) :
    stageAfterOk r = if r.wLength = 0 then .statusIn else .dataOut := by
  obtain ⟨hs, hcode⟩ := nonstd_fields hw
  simp [stageAfterOk, hs, hcode]

/-- GET_LINE_CODING enters the data stage when the host asks for data, and else the status stage (R30). -/
theorem stageAfterOk_getLineCoding {r : SetupRequest} (hw : WellFormed.nonstd r 0x21 = true) :
    stageAfterOk r = if r.wLength = 0 then .statusIn else .dataIn := by
  obtain ⟨hs, hcode⟩ := nonstd_fields hw
  simp [stageAfterOk, hs, hcode]

/-- The Setup step of SET_LINE_CODING writes nothing of its own (R100). -/
theorem exec_setLineCoding {a : DevAddr} {r : SetupRequest} {s : State} (hw : WellFormed (.setLineCoding a r) = true)
    (ha : Addressed a s) : exec (.setLineCoding a r) s = .next
      (statusArmed (s.mem.write .ep0rx 0 (packetBytes r)) r (if r.wLength = 0 then .statusIn else .dataOut) s) := by
  rw [exec_request_of_ok (f := handleSetLineCoding) ha rfl rfl, stageAfterOk_setLineCoding hw, setupOk_prepared]

/-- Settles O24: each handler answers OK(0) and leaves the prepared state, and R30 gives the stage. -/
theorem lineRequestsAreAcknowledged : Obligations.LineRequestsAreAcknowledged := by
  intro a r s ha
  refine ⟨fun hw => ⟨_, packetLands_write r s, exec_setLineCoding hw ha⟩, fun hw => ⟨_, packetLands_write r s, ?_⟩⟩
  rw [exec_request_of_ok (f := handleSetControlLineState) ha rfl rfl, (noData_setControlLineState hw s).stage, setupOk_prepared]

/-- Settles O25: the handler opens a cursor over the space LC, whose table is the record. -/
theorem getLineCodingOpensTheRecord : Obligations.GetLineCodingOpensTheRecord := by
  intro a r s hw ha
  exact cursorStarts_of_handler (f := handleGetLineCoding) (sp := .lc) ha rfl rfl rfl (stageAfterOk_getLineCoding hw)

/-! ### The record as bytes -/

/-- The bytes of a clamped record: 57600 is 0x0000E100, little-endian (R62, R106, R160). -/
theorem LineCoding.bytes_clamp (l : LineCoding) : l.clamp.bytes =
    if l.dwDTERate.toNat > 999999 then [0x00, 0xE1, 0x00, 0x00, l.bCharFormat, l.bParityType, l.bDataBits] else l.bytes := by
  unfold LineCoding.clamp
  split
  · simp [LineCoding.bytes, byteOf32]
  · rfl

/-- A record of seven bytes has those bytes (R62). -/
theorem LineCoding.bytes_le32 (b0 b1 b2 b3 b4 b5 b6 : Byte) :
    (⟨le32 b0 b1 b2 b3, b4, b5, b6⟩ : LineCoding).bytes = [b0, b1, b2, b3, b4, b5, b6] := by
  simp [LineCoding.bytes]

/-! ### The write -/

/-- The packet of an accepted EP0 OUT reads as sent. -/
theorem memRead_ep0Received {data : List Byte} {x : Nat} (hx : x < data.length) (s : State) :
    (ep0Received data s).memRead .ep0rx x = data.getD x 0 := by
  have hread := memRead_write (sp := .ep0rx) rfl 0 data s .ep0rx x
  rw [if_pos ⟨rfl, Nat.zero_le x, by omega⟩, Nat.sub_zero] at hread
  exact (memRead_congr rfl rfl rfl _ _).trans hread

/-- The data stage of SET_LINE_CODING commits a sync-OK packet of seven bytes (R75, R106). -/
theorem exec_outEp0_setLineCoding {a : DevAddr} {pid : Pid} {data : List Byte} {s : State} (ha : Addressed a s)
    (hrx : s.ep0.rx = ⟨.ack, pid⟩) (hq : s.ctl.pendReq = 0x20) (hd : data.length = 7) :
    exec (.outEp0 a pid data) s = .next (commitLineCoding (ep0Received data s)) := by
  have hcommit : ep0OutComplete (syncOk pid s.ep0.rx) (ep0Received data s) = commitLineCoding (ep0Received data s) := by
    simp [ep0OutComplete, lineCodingData, syncOk, ep0Received, hrx, hq, hd, lcLen]
  rw [exec, execOutEp0, outGate_addressed ha (by rw [State.half, hrx]) (by omega), acceptOut_ep0_eq, hcommit]

/-- What the data stage commits is the record sent, clamped (R106). -/
theorem commitLineCoding_lc (b0 b1 b2 b3 b4 b5 b6 : Byte) (s : State) :
    (commitLineCoding (ep0Received [b0, b1, b2, b3, b4, b5, b6] s)).lc =
      (⟨le32 b0 b1 b2 b3, b4, b5, b6⟩ : LineCoding).clamp := by
  simp [commitLineCoding, LineCoding.ofBytes, memRead_ep0Received]

/-- The status IN of SET_LINE_CODING sends the armed packet and closes EP0 (R74, R105). -/
theorem exec_inEp0_setLineCoding {a : DevAddr} {s : State} (ha : Addressed a s) (hm : s.ep0.tx.mode = .ack)
    (hq : s.ctl.pendReq = 0x20) : exec (.inEp0 a true) s = .next { sent .ep0 .ep0tx s with
      ep0 := { s.ep0 with txLen := 0, tx := ⟨.nak, s.ep0.tx.tog⟩, rx := ⟨.ack, s.ep0.rx.tog⟩ },
      ctl := { s.ctl with stage := stageAfterIn s.ctl.stage } } := by
  have hx : exec (.inEp0 a true) s = .next (ep0InComplete (sent .ep0 .ep0tx s)) := inGate_addressed (n := .ep0) ha hm
  rw [hx, ep0InComplete_eq, if_neg (by simp [hq]), if_neg (by simp [hq])]
  rfl

/-- From the Setup stage on, a SET_LINE_CODING transfer stores the record sent, clamped (R105, R106). -/
theorem TransferAt.execAll_lineCoding {a : DevAddr} {g : Stage} {tog : Pid} {s : State} (h : TransferAt a 0x20 g ⟨.ack, tog⟩ s)
    (b0 b1 b2 b3 b4 b5 b6 : Byte) :
    ∃ t, execAll [.outEp0 a .data1 [b0, b1, b2, b3, b4, b5, b6], .inEp0 a true] s = .next t ∧ Addressed a t ∧
      t.lc = (⟨le32 b0 b1 b2 b3, b4, b5, b6⟩ : LineCoding).clamp ∧
      t.out = s.out ++ [.response .ack, .response (.data tog [])] := by
  let u := commitLineCoding (ep0Received [b0, b1, b2, b3, b4, b5, b6] s)
  have hdata : exec (.outEp0 a .data1 [b0, b1, b2, b3, b4, b5, b6]) s = .next u :=
    exec_outEp0_setLineCoding h.addressed h.rx h.pendReq rfl
  have hstatus := exec_inEp0_setLineCoding (s := u) h.addressed rfl h.pendReq
  refine ⟨_, (execAll_cons_next hdata).trans (execAll_cons_next hstatus), h.addressed,
    commitLineCoding_lc b0 b1 b2 b3 b4 b5 b6 s, ?_⟩
  simp [u, sent, commitLineCoding, ep0Received, State.half, State.txLen, State.memReadN, h.tx]

/-! ### The read -/

/-- GET_LINE_CODING and one IN return the whole record, if the host asks for as much (R86, R101). -/
theorem execAll_getLineCoding {a : DevAddr} {r : SetupRequest} {s : State} (hw : WellFormed (.getLineCoding a r) = true)
    (ha : Addressed a s) (hlen : r.wLength.toNat ≥ 7) : ∃ t, execAll [.getLineCoding a r, .inEp0 a true] s = .next t ∧
      t.out = s.out ++ [.response .ack, .response (.data .data1 s.lc.bytes)] := by
  obtain ⟨hs, hcode⟩ := nonstd_fields hw
  obtain ⟨t, hx, hout⟩ := dataStageSendsTheClippedTable a r s s.lc.bytes ha (.inr ⟨hs, hcode, rfl⟩) 1
  rw [decodeRequest_of_wellFormed rfl (by simp) hw] at hx
  have hwhole : s.lc.bytes.take r.wLength.toNat = s.lc.bytes := List.take_of_length_le hlen
  refine ⟨t, hx, ?_⟩
  rw [hout, hwhole]
  rfl

/-- Settles O31: the write stores the record, clamped, and the read returns the bytes of the record. -/
theorem lineCodingRoundTrip : Obligations.LineCodingRoundTrip := by
  intro a w q s b0 b1 b2 b3 b4 b5 b6 hw hq hlen ha
  have hsetup := exec_setLineCoding hw ha
  obtain ⟨-, hcode⟩ := nonstd_fields hw
  obtain ⟨t, hwrite, hat, hlc, hout⟩ :=
    TransferAt.execAll_lineCoding (s := statusArmed _ w _ s) ⟨ha, hcode, rfl, rfl, rfl⟩ b0 b1 b2 b3 b4 b5 b6
  obtain ⟨u, hread, hout'⟩ := execAll_getLineCoding hq hat hlen
  refine ⟨u, (execAll_cons_next hsetup).trans ((execAll_append hwrite).trans hread), ?_⟩
  rw [hout', hout, hlc, LineCoding.bytes_clamp, LineCoding.bytes_le32]
  simp [statusArmed]

end Sys2Proof.Machine
end

section
/-! PROOFS, family 44: the data and status stages of EP0: the IN completion in its three branches (O27), the data stage of
SET_LINE_CODING (O28), and the OUT that closes a transfer (O29). -/

namespace Sys2Proof.Machine
open Sys2Proof

/-! ### IN tokens -/

/-- The table a cursor reads; the empty cursor has none (R28, R85). -/
def cursorTable (src : CursorSrc) (s : State) : List Byte :=
  match spaceOf src with
  | some sp => s.table sp
  | none => []

/-- Inside its table, the cursor's next packet holds the bytes of the table from `off` on (R85). -/
theorem cursorBytes_getD {s : State} {n x : Nat} (hx : x < n) (h : s.ctl.cur.off + n ≤ tableLen s.ctl.cur.src s) :
    (cursorBytes n s).getD x 0 = (cursorTable s.ctl.cur.src s).getD (s.ctl.cur.off + x) 0 := by
  cases hsp : spaceOf s.ctl.cur.src with
  | none => simp only [cursorBytes, cursorTable, hsp, List.getD_nil]
  | some sp =>
    simp only [tableLen, hsp] at h
    simp only [cursorBytes, cursorTable, hsp]
    rw [memReadN_getD s hx, memRead_table (by omega)]

/-- What memory reads as after the cursor's next packet is loaded (R85). -/
theorem memRead_cursorLoad {s : State} (h : s.ctl.cur.off + s.ctl.cur.remaining ≤ tableLen s.ctl.cur.src s)
    (sp : Space) (x : Nat) : (cursorLoad s).memRead sp x =
      if sp = .ep0tx ∧ x < cursorLen s then (cursorTable s.ctl.cur.src s).getD (s.ctl.cur.off + x) 0 else s.memRead sp x := by
  have hlen := cursorLen_le_remaining s
  have hread := memRead_write (sp := .ep0tx) rfl 0 (cursorBytes (cursorLen s) s) s sp x
  simp only [cursorBytes_cursorLen_length h, Nat.zero_le, true_and, Nat.zero_add, Nat.sub_zero] at hread
  refine (memRead_congr rfl rfl rfl sp x).trans (hread.trans ?_)
  split
  · next hx =>
    obtain ⟨-, hlt⟩ := hx
    exact cursorBytes_getD hlt (by omega)
  · rfl

/-- An acknowledged EP0 IN sends the armed packet and runs the completion handler; EP0's toggle does not advance of itself (R74,
R76, R77). -/
theorem exec_inEp0_acked {a : DevAddr} {s : State} (ha : Addressed a s) (hm : s.ep0.tx.mode = .ack) :
    exec (.inEp0 a true) s = .next (ep0InComplete (sent .ep0 .ep0tx s)) := inGate_addressed (n := .ep0) ha hm

/-- Settles O27: the completion's three branches; in the cursor's, the packet loaded is the next piece of its table. -/
theorem ep0InCompletionFollowsThePendingRequest : Obligations.Ep0InCompletionFollowsThePendingRequest := by
  intro a s ha hm out stage
  refine ⟨fun hq hinv => ⟨(cursorLoad s).mem, cursorLen s, rfl, ?_, fun sp x => ?_⟩, exec_inEp0_setAddress ha hm,
    fun h6 h21 h5 => ?_⟩
  · rw [exec_inEp0_acked ha hm, ep0InComplete_eq, sent_ctl, if_pos hq, ← hm]
    rfl
  · refine (memRead_congr rfl rfl rfl sp x).trans ((memRead_cursorLoad hinv.cursor sp x).trans ?_)
    cases s.ctl.cur.src <;> rfl
  · rw [exec_inEp0_acked ha hm, ep0InComplete_eq, sent_ctl, if_neg (not_or.2 ⟨h6, h21⟩), if_neg h5]
    rfl

/-! ### OUT tokens -/

/-- An accepted EP0 OUT lands in EP0RX, is acknowledged and runs the completion handler (R75, R77). -/
theorem exec_outEp0_accepted {a : DevAddr} {data : List Byte} {s : State} (ha : Addressed a s) (hm : s.ep0.rx.mode = .ack)
    (hd : data.length ≤ 64) (pid : Pid) :
    exec (.outEp0 a pid data) s = .next (ep0OutComplete (syncOk pid s.ep0.rx) (ep0Received data s)) := by
  rw [exec, execOutEp0, outGate_addressed (n := .ep0) ha hm hd, acceptOut_ep0_eq]

@[simp] theorem ep0Received_ctl (data : List Byte) (s : State) : (ep0Received data s).ctl = s.ctl := rfl

/-- What memory reads as after a packet has landed in EP0RX (R75). -/
theorem memRead_write_ep0rx (data : List Byte) (s : State) (sp : Space) (x : Nat) :
    (withMem (s.mem.write .ep0rx 0 data) s).memRead sp x =
      if sp = .ep0rx ∧ x < data.length then data.getD x 0 else s.memRead sp x := by
  rw [memRead_write rfl]
  simp only [Nat.zero_le, true_and, Nat.zero_add, Nat.sub_zero]

/-- The clamp looks at the baud only (R106). -/
theorem LineCoding.clamp_mk (baud : BitVec 32) (b4 b5 b6 : Byte) :
    (⟨baud, b4, b5, b6⟩ : LineCoding).clamp = ⟨if baud.toNat > 999999 then 57600 else baud, b4, b5, b6⟩ := by
  unfold LineCoding.clamp
  split <;> rfl

/-- What the commit of a SET_LINE_CODING record leaves (R106). -/
theorem commitLineCoding_ep0Received (b0 b1 b2 b3 b4 b5 b6 : Byte) (s : State) :
    commitLineCoding (ep0Received [b0, b1, b2, b3, b4, b5, b6] s) = { ep0Received [b0, b1, b2, b3, b4, b5, b6] s with
      lc := ⟨if (le32 b0 b1 b2 b3).toNat > 999999 then 57600 else le32 b0 b1 b2 b3, b4, b5, b6⟩,
      ep0 := { s.ep0 with rxLen := 7, txLen := 0, tx := ⟨.ack, s.ep0.tx.tog⟩ },
      ctl := { s.ctl with stage := if s.ctl.stage = .dataOut then .statusIn else s.ctl.stage } } := by
  rw [← LineCoding.clamp_mk, ← commitLineCoding_lc b0 b1 b2 b3 b4 b5 b6 s]
  rfl

/-- Settles O28: the handler tests the toggle, then the length; what passes both is committed. -/
theorem lineCodingDataStageCommitsSevenBytes : Obligations.LineCodingDataStageCommitsSevenBytes := by
  intro a pid data s ha hm hq hd
  have hx : exec (.outEp0 a pid data) s = .next (lineCodingData (pid == s.ep0.rx.tog) (ep0Received data s)) := by
    rw [exec_outEp0_accepted ha hm hd, ep0OutComplete, ep0Received_ctl, if_pos hq, syncOk]
  refine ⟨s.mem.write .ep0rx 0 data, memRead_write_ep0rx data s, fun hp => ?_, fun hp hl => ?_, ?_⟩
  · rw [hx, beq_false_of_ne hp]
    rfl
  · rw [hx, beq_iff_eq.2 hp]
    exact congrArg _ (if_pos hl)
  · rintro b0 b1 b2 b3 b4 b5 b6 rfl rfl
    rw [exec_outEp0_setLineCoding ha (by rw [← hm]) hq rfl, commitLineCoding_ep0Received]
    rfl

/-- Settles O29: every other pending request has the handler that closes EP0, which does not look at the toggle. -/
theorem statusOutClosesTheTransfer : Obligations.StatusOutClosesTheTransfer := by
  intro a pid data s ha hm hq hd
  refine ⟨s.mem.write .ep0rx 0 data, ?_, memRead_write_ep0rx data s⟩
  rw [exec_outEp0_accepted ha hm hd, ep0OutComplete, ep0Received_ctl, if_neg hq, statusOut_eq]
  rfl

end Sys2Proof.Machine
end

section
/-! PROOFS, family 45: the completions of the bridge's endpoints (O33, O34), the tick and the independence of its halves (O35, O36),
and the application's two calls (O37, O38). -/

namespace Sys2Proof.Machine
open Sys2Proof

/-! ### The endpoint completions -/

/-- Settles O33: each IN sends the armed packet, and its handler closes the half. -/
theorem bridgeInCompletionsNak : Obligations.BridgeInCompletionsNak := by
  intro a s ha
  refine ⟨fun hm => ?_, fun hm => ?_⟩
  · exact (inGate_addressed (n := .ep1) (f := ep1InComplete) ha hm).trans rfl
  · exact (inGate_addressed (n := .ep2) (f := ep2InComplete) ha hm).trans rfl

/-- What memory reads as after bytes have been written from the start of a space. -/
theorem memRead_write_start {sp : Space} (hr : isRam sp = true) (bs : List Byte) (s : State) (sp' : Space) (x : Nat) :
    (withMem (s.mem.write sp 0 bs) s).memRead sp' x =
      if sp' = sp ∧ x < bs.length then bs.getD x 0 else s.memRead sp' x := by
  rw [memRead_write hr]
  simp only [Nat.zero_le, true_and, Nat.zero_add, Nat.sub_zero]

/-- Settles O34: the packet lands in EP2RX, and the handler commits it when its PID is the toggle. -/
theorem ep2OutCompletionAppliesBackpressure : Obligations.Ep2OutCompletionAppliesBackpressure := by
  intro a pid data s ha hm hd
  have hx : exec (.outEp2 a pid data) s = .next (acceptOut .ep2 .ep2rx ep2OutComplete pid data s) :=
    outGate_addressed (n := .ep2) ha hm hd
  rw [hx, acceptOut_ep2_eq]
  refine ⟨s.mem.write .ep2rx 0 data, memRead_write_start rfl data s, fun hp => ?_, fun hp => ?_⟩
  · rw [if_pos hp]
  · rw [if_neg hp]

/-! ### The tick -/

/-- The RX step writes no byte of memory (R112). -/
theorem memReadN_rxStep (sp : Space) (x n : Nat) (s : State) : (rxStep s).memReadN sp x n = s.memReadN sp x n := by
  rw [rxStep_eq]
  split_ifs <;> rfl

section
variable {s : State} (hc : s.sess.cfg = 1)
include hc

/-- While no packet is due, a configured TX step only counts (R115). -/
theorem txStep_waits (hd : ¬ drains s) :
    txStep s = { s with tx := { s.tx with timeout := countedTimeout s.par s.tx } } := by
  rw [txStep_eq, if_pos hc, if_neg hd]

/-- When a packet is due, a configured TX step moves the contiguous run of pending bytes to EP2TX and arms it (R115). -/
theorem txStep_arms (hd : drains s) : txStep s = { s with
    mem := s.mem.write .ep2tx 0 (s.memReadN .ring s.tx.r (drainLen s.par s.tx)),
    tx := ⟨s.tx.w, (s.tx.r + drainLen s.par s.tx) % txcap s.par, s.tx.pend - drainLen s.par s.tx, true, 0⟩,
    ep2 := { s.ep2 with txLen := drainLen s.par s.tx, tx := ⟨.ack, s.ep2.tx.tog⟩ } } := by
  rw [txStep_eq, if_pos hc, if_pos hd]

end

/-- What memory reads as after a run of the ring has been copied to EP2TX (R115). -/
theorem memRead_write_ringRun (r n : Nat) (s : State) (sp : Space) (x : Nat) :
    (withMem (s.mem.write .ep2tx 0 (s.memReadN .ring r n)) s).memRead sp x =
      if sp = .ep2tx ∧ x < n then s.memRead .ring (r + x) else s.memRead sp x := by
  rw [memRead_write_start rfl, memReadN_length]
  split_ifs with h
  · exact memReadN_getD s h.2
  · rfl

/-- Settles O35: the state after the RX step is the statement's `u`, and the TX step finds in it the ring it found before. -/
theorem tickDeliversOneByteAndDrainsTheRing : Obligations.TickDeliversOneByteAndDrainsTheRing := by
  intro s hs u c n due
  have hu : rxStep s = u := rxStep_eq s
  obtain ⟨-, -, hsess, hpar, htx, hhalf, -, hmem⟩ := rxStep_frame s
  have hdue : drains (rxStep s) ↔ due := by rw [drains, hpar, htx]; rfl
  rw [exec_tick hs, ← hu, ← hdue, ← hsess]
  refine ⟨fun hc => ?_, fun hc hd => ?_, fun hc hd => ⟨_, ?_, memRead_write_ringRun s.tx.r n s⟩⟩
  · rw [txStep_eq, if_neg (by rw [hc]; decide)]
  · rw [txStep_waits hc hd, hpar, htx]
    rfl
  · rw [txStep_arms hc hd, memReadN_rxStep, hpar, htx, hhalf, hmem]
    rfl

/-- The TX step neither reads nor writes what the RX step writes: the outputs, the receive counter and EP2's OUT half. -/
theorem txStep_receiveSide (o : List Event) (c : RxCounter) (h : Half) (s : State) :
    txStep { s with out := o, rx := c, ep2 := { s.ep2 with rx := h } } =
      { txStep s with out := o, rx := c, ep2 := { (txStep s).ep2 with rx := h } } := by
  rw [txStep_eq, txStep_eq]
  dsimp only
  split_ifs <;> rfl

/-- Settles O36: the RX step reads only what the TX step leaves alone, and the TX step does not touch what it writes. -/
theorem tickHalvesCommute : Obligations.TickHalvesCommute := by
  intro s
  obtain ⟨-, -, -, -, hrx, hhalf, hout, hbuf⟩ := txStep_frame s
  rw [rxStep_eq, rxStep_eq, hrx, hhalf, hout, hbuf]
  by_cases h : s.rx.count = 0
  · rw [if_pos h, if_pos h]
  · rw [if_neg h, if_neg h, txStep_receiveSide]

/-! ### The application's calls -/

/-- An enqueue in RUN (R114). -/
theorem exec_enq {s : State} (h : Running s) (b : Byte) :
    exec (.enq b) s = .next (if s.tx.pend = txcap s.par then s.raise .txOverflow else enqueue b s) :=
  mainGate_running h fun s => if s.tx.pend = txcap s.par then s.raise .txOverflow else enqueue b s

/-- A read after an enqueue: the write offset reads as the byte, every other offset as before. -/
theorem memRead_enqueue (b : Byte) (s : State) (sp : Space) (x : Nat) :
    (enqueue b s).memRead sp x = if sp = .ring ∧ x = s.tx.w then b else s.memRead sp x := by
  have hread : (enqueue b s).memRead sp x = _ := memRead_write (sp := .ring) rfl s.tx.w [b] s sp x
  have hoff : s.tx.w ≤ x ∧ x < s.tx.w + [b].length ↔ x = s.tx.w := by simp only [List.length_singleton]; omega
  rw [hread]
  simp only [hoff]
  split_ifs with h
  · rw [h.2, Nat.sub_self, List.getD_cons_zero]
  · rfl

/-- Settles O37: the two branches of the enqueue. -/
theorem enqueueStoresOneByteOrOverflows : Obligations.EnqueueStoresOneByteOrOverflows := by
  intro b s hs
  rw [exec_enq hs]
  refine ⟨fun hfull => ?_, fun hroom => ⟨s.mem.write .ring s.tx.w [b], ?_, memRead_enqueue b s⟩⟩
  · rw [if_pos hfull]
    rfl
  · rw [if_neg hroom]
    rfl

/-- Settles O38: the query emits its answer. -/
theorem emptyQueryReportsPending : Obligations.EmptyQueryReportsPending := by
  intro s hs
  exact mainGate_running hs fun s => s.emit (.emptyResult (s.tx.pend == 0))

end Sys2Proof.Machine
end

section
/-! PROOFS, family 45: the batching of R116 (O40). A batch grows by enqueues and waits through ticks, and a tick arms it when it has
39 bytes or has waited through 100 ticks. -/

namespace Sys2Proof.Machine
open Sys2Proof

/-- Offsets of the ring less than TXCAP places apart are different. -/
theorem ringOffset_ne {r i n cap : Nat} (hi : i < n) (hn : n < cap) : (r + i) % cap ≠ (r + n) % cap := fun h =>
  absurd (Nat.ModEq.add_left_cancel' (n := cap) r h) (by rw [Nat.ModEq, Nat.mod_eq_of_lt (hi.trans hn), Nat.mod_eq_of_lt hn]; omega)

/-- Since `s`, whose ring was empty, the bytes `bs` have been enqueued and `k` ticks have counted, and nothing has been armed: the
bytes stand in the ring from the read offset on, in order (R114, R115). -/
structure Batched (s : State) (bs : List Byte) (k : Nat) (t : State) : Prop where
  running : Running t
  par : t.par = s.par
  cfg : t.sess.cfg = 1
  w : t.tx.w = (s.tx.r + bs.length) % txcap s.par
  r : t.tx.r = s.tx.r
  pend : t.tx.pend = bs.length
  busy : t.tx.busy = false
  timeout : t.tx.timeout = k
  half : t.ep2.tx = s.ep2.tx
  txLen : t.ep2.txLen = s.ep2.txLen
  bytes : ∀ i (hi : i < bs.length), t.memRead .ring ((s.tx.r + i) % txcap s.par) = bs[i]

namespace Batched
variable {s t : State} {bs : List Byte} {k : Nat}

/-- Nothing has been enqueued yet. -/
theorem start (hs : Running s) (hring : RingInv s) (hc : s.sess.cfg = 1) (hb : s.tx.busy = false) (ht : s.tx.timeout = 0)
    (hp : s.tx.pend = 0) : Batched s [] 0 s where
  running := hs
  par := rfl
  cfg := hc
  w := by rw [List.length_nil, ← hp, hring.w_eq]
  r := rfl
  pend := hp
  busy := hb
  timeout := ht
  half := rfl
  txLen := rfl
  bytes := nofun

/-! ### Enqueues -/

/-- A byte enqueued lands behind the batch (R114). -/
theorem enqueue (h : Batched s bs k t) (hn : bs.length < txcap s.par) (b : Byte) :
    Batched s (bs ++ [b]) k (enqueue b t) where
  running := h.running
  par := h.par
  cfg := h.cfg
  w := by
    rw [List.length_append, List.length_singleton, ← Nat.add_assoc, ← Nat.mod_add_mod, ← h.w, ← h.par]
    rfl
  r := h.r
  pend := by
    rw [List.length_append, ← h.pend]
    rfl
  busy := h.busy
  timeout := h.timeout
  half := h.half
  txLen := h.txLen
  bytes := fun i hi => by
    rw [memRead_enqueue, h.w]
    rw [List.length_append, List.length_singleton] at hi
    rcases Nat.lt_succ_iff_lt_or_eq.1 hi with hlt | rfl
    · rw [if_neg fun h' => ringOffset_ne hlt hn h'.2, h.bytes i hlt, List.getElem_append_left hlt]
    · rw [if_pos ⟨rfl, rfl⟩, List.getElem_concat_length rfl]

theorem exec_enqs (cs : List Byte) (h : Batched s bs k t) (hn : bs.length + cs.length ≤ txcap s.par) :
    ∃ u, execAll (cs.map .enq) t = .next u ∧ Batched s (bs ++ cs) k u := by
  induction cs generalizing bs t with
  | nil => exact ⟨t, rfl, by rwa [List.append_nil]⟩
  | cons c cs ih =>
    rw [List.length_cons] at hn
    have hx : exec (.enq c) t = .next (Machine.enqueue c t) := by
      rw [exec_enq h.running, if_neg (by rw [h.pend, h.par]; omega)]
    obtain ⟨u, hxs, hu⟩ := ih (h.enqueue (by omega) c) (by rw [List.length_append, List.length_singleton]; omega)
    exact ⟨u, (execAll_cons_next hx).trans hxs, by rwa [List.append_assoc] at hu⟩

/-! ### Ticks -/

/-- The RX step plays no part in the batching (R118). -/
theorem rxStep (h : Batched s bs k t) : Batched s bs k (rxStep t) := by
  obtain ⟨hf, hpwr, hsess, hpar, htx, hhalf, hlen, hmem⟩ := rxStep_frame t
  have hread : ∀ x, (Machine.rxStep t).memRead .ring x = t.memRead .ring x :=
    memRead_congr_space (sp := .ring) rfl (by rw [hmem])
  constructor
  case running => simpa only [Running, hf, hpwr] using h.running
  case bytes => exact fun i hi => (hread _).trans (h.bytes i hi)
  all_goals simp only [hpar, hsess, htx, hhalf, hlen, h.par, h.cfg, h.w, h.r, h.pend, h.busy, h.timeout, h.half, h.txLen]

/-- While bytes are pending the counter counts, and up to 101 it has not wrapped, since W_TO is 7 at least (R9, R115). -/
theorem countedTimeout_eq (h : Batched s bs k t) (hpos : 0 < bs.length) (hk : k ≤ 100) :
    countedTimeout t.par t.tx = k + 1 := by
  have hw : 2 ^ 7 ≤ 2 ^ wTo t.par := Nat.pow_le_pow_right (by decide) (Nat.le_add_left 7 _)
  rw [countedTimeout, if_pos (by rwa [h.pend]), h.timeout, Nat.mod_eq_of_lt (by omega)]

/-- When the next TX step arms the batch (R115). -/
theorem drains_iff (h : Batched s bs k t) (hpos : 0 < bs.length) (hk : k ≤ 100) :
    drains t ↔ 39 ≤ bs.length ∨ 100 < k + 1 := by
  rw [drains, h.countedTimeout_eq hpos hk, h.pend]
  exact ⟨fun ⟨_, _, hd⟩ => hd, fun hd => ⟨h.busy, hpos, hd⟩⟩

/-- Below 39 bytes, the ticks up to the hundredth only count. -/
theorem waits (h : Batched s bs k t) (hpos : 0 < bs.length) (h39 : bs.length < 39) (hk : k < 100) :
    Batched s bs (k + 1) (txStep t) := by
  rw [txStep_waits h.cfg fun hd => by have := (h.drains_iff hpos hk.le).1 hd; omega]
  exact { h with timeout := h.countedTimeout_eq hpos hk.le }

theorem exec_ticks (n : Nat) (h : Batched s bs k t) (hpos : 0 < bs.length) (h39 : bs.length < 39) (hk : k + n ≤ 100) :
    ∃ u, execAll (List.replicate n .tick) t = .next u ∧ Batched s bs (k + n) u := by
  induction n generalizing k t with
  | zero => exact ⟨t, rfl, h⟩
  | succ n ih =>
    obtain ⟨u, hxs, hu⟩ := ih (h.rxStep.waits hpos h39 (by omega)) (by omega)
    exact ⟨u, by rw [List.replicate_succ, execAll_cons_next (exec_tick h.running), hxs], by rwa [Nat.add_right_comm] at hu⟩

end Batched

/-! ### The armed packet -/

/-- `u` has armed the first `n` of the bytes `bs` that `s` was given, and holds the others pending. -/
structure BatchArmed (s : State) (bs : List Byte) (n : Nat) (u : State) : Prop where
  pend : u.tx.pend = bs.length - n
  busy : u.tx.busy = true
  half : u.ep2.tx = ⟨.ack, s.ep2.tx.tog⟩
  txLen : u.ep2.txLen = n
  packet : u.memReadN .ep2tx 0 n = bs.take n

namespace Batched
variable {s t : State} {bs : List Byte} {k : Nat}

/-- A run of the ring that ends before the ring does is a run of the batch. -/
theorem memReadN_ring (h : Batched s bs k t) {n : Nat} (hn : n ≤ bs.length) (hcap : s.tx.r + n ≤ txcap s.par) :
    t.memReadN .ring s.tx.r n = bs.take n := by
  refine List.ext_getElem (by simpa using hn) fun i hi _ => ?_
  rw [memReadN_length] at hi
  have hbyte := h.bytes i (by omega)
  rw [Nat.mod_eq_of_lt (by omega)] at hbyte
  simpa [State.memReadN] using hbyte

/-- With 39 bytes, or after 100 ticks, the TX step arms the batch up to the ring's end. -/
theorem arms (h : Batched s bs k t) (hr : s.tx.r < txcap s.par) (hpos : 0 < bs.length) (hk : k ≤ 100)
    (hdue : 39 ≤ bs.length ∨ k = 100) :
    BatchArmed s bs (min (min bs.length (txcap s.par - s.tx.r)) 64) (txStep t) := by
  have hlen : drainLen t.par t.tx = min (min bs.length (txcap s.par - s.tx.r)) 64 := by
    rw [drainLen, h.pend, h.par, h.r]
  rw [txStep_arms h.cfg ((h.drains_iff hpos hk).2 (by omega)), hlen, h.r, h.half,
    h.memReadN_ring (by omega) (by omega)]
  generalize hn : min (min bs.length (txcap s.par - s.tx.r)) 64 = n
  have htake : (bs.take n).length = n := by rw [List.length_take]; omega
  have hread := memReadN_write_same (sp := .ep2tx) rfl 0 (bs.take n) t
  rw [htake] at hread
  exact ⟨by rw [← h.pend], rfl, rfl, rfl, hread⟩

/-- The tick that arms the batch. -/
theorem exec_tick_arms (h : Batched s bs k t) (hr : s.tx.r < txcap s.par) (hpos : 0 < bs.length) (hk : k ≤ 100)
    (hdue : 39 ≤ bs.length ∨ k = 100) : ∃ u, execAll [.tick] t = .next u ∧
      BatchArmed s bs (min (min bs.length (txcap s.par - s.tx.r)) 64) u :=
  ⟨_, execAll_cons_next (exec_tick h.running), h.rxStep.arms hr hpos hk hdue⟩

end Batched

/-- Settles O40: the batch waits through 100 ticks; the next one arms it, and so does an earlier one that finds 39 bytes. -/
theorem batchingWaitsFor39BytesOr101Ticks : Obligations.BatchingWaitsFor39BytesOr101Ticks := by
  intro s bs hs hring hc hb ht hp hpos h39 hcap n
  obtain ⟨t, hxt, htb⟩ := (Batched.start hs hring hc hb ht hp).exec_enqs bs (by simpa using hcap)
  rw [List.nil_append] at htb
  have hwait : ∀ j, j ≤ 100 → ∃ u, execAll (bs.map .enq ++ List.replicate j .tick) s = .next u ∧ Batched s bs j u := by
    intro j hj
    obtain ⟨u, hxu, hu⟩ := htb.exec_ticks j hpos h39 (by omega)
    exact ⟨u, (execAll_append hxt).trans hxu, by rwa [Nat.zero_add] at hu⟩
  refine ⟨fun j hj => ?_, ?_, fun j cs hj hj' hlen hcap' => ?_⟩
  · obtain ⟨u, hxu, hu⟩ := hwait j hj
    exact ⟨u, hxu, hu.pend, hu.busy, hu.half, hu.txLen⟩
  · obtain ⟨u, hxu, hu⟩ := hwait 100 le_rfl
    obtain ⟨v, hxv, hv⟩ := hu.exec_tick_arms hring.r_lt hpos le_rfl (.inr rfl)
    refine ⟨v, ?_, hv.pend, hv.busy, hv.half, hv.txLen, hv.packet⟩
    rw [List.replicate_succ', ← List.append_assoc, execAll_append hxu, hxv]
  · obtain ⟨u, hxu, hu⟩ := hwait (j - 1) (by omega)
    obtain ⟨v, hxv, hv⟩ := hu.exec_enqs cs (by omega)
    have hall : (bs ++ cs).length = 39 := by rw [List.length_append, hlen]
    obtain ⟨w, hxw, hw⟩ := hv.exec_tick_arms hring.r_lt (by omega) (by omega) (.inl hall.ge)
    rw [hall] at hw
    refine ⟨w, ?_, hw.busy, hw.half, hw.txLen⟩
    rw [execAll_append ((execAll_append hxu).trans hxv), hxw]

end Sys2Proof.Machine
end

section
/-! PROOFS, family 46: the power controller. What a bus SUSPEND, a POLL and a wake event do in each power state (O41, O42, O43), the
moves of the power state (O46), and the suspend cycle (O47). -/

namespace Sys2Proof.Machine
open Sys2Proof

/-! ### SUSPEND, POLL and the wake events -/

theorem exec_busSuspend_running {s : State} (h : Running s) : exec .busSuspend s = .next (suspEnter .bus s) := by
  obtain ⟨hf, hp⟩ := h
  simp only [exec, execBusSuspend, unlessFaulted_none hf, hp]

/-- Settles O41: in RUN the operation is the suspend sequence with origin BUS. -/
theorem suspendEntersDrainWait : Obligations.SuspendEntersDrainWait :=
  fun _ h => exec_busSuspend_running h

/-- Settles O42: the three columns of POLL's row of R124. -/
theorem pollHaltsWhenTheUartIsIdle : Obligations.PollHaltsWhenTheUartIsIdle := by
  intro uart s hf hne
  cases hp : s.pwr.state with
  | run => simpa using exec_run_noEffect (i := .poll uart) hf hp (by simp [opClass])
  | drainWait =>
    rw [exec_drainWait_poll hf hp]
    cases uart <;> rfl
  | halt => simpa using exec_halt_noEffect (i := .poll uart) hf hp (by simp [opClass])
  | exited => exact absurd hp hne

/-- A wake event wakes the core where it is halted with the source armed, and has no effect elsewhere (R123, R124). -/
theorem wakeGate_next_eq {s : State} (hf : s.fault = none) (hne : s.pwr.state ≠ .exited) (src : WakeSrc) :
    wakeGate src s = .next (if s.pwr.state = .halt ∧ s.pwr.wakeArm.holds src = true then wakeNow s else s) := by
  cases hp : s.pwr.state with
  | run => simpa using wakeGate_run hf hp src
  | drainWait => simpa using wakeGate_drainWait hf hp src
  | halt => simpa [wake] using wakeGate_halt hf hp src
  | exited => exact absurd hp hne

/-- Settles O43: each wake event is behind the gate of its source. -/
theorem wakeReturnsToRun : Obligations.WakeReturnsToRun := by
  intro s hf hne woken
  have hwoken : wakeNow s = woken := wakeNow_eq s
  rw [← hwoken]
  exact ⟨wakeGate_next_eq hf hne .usb, wakeGate_next_eq hf hne .rxd0, wakeGate_next_eq hf hne .rxd1⟩

/-! ### The moves of the power state -/

/-- Of all requests, the sleep request and the bootloader request alone move the power state (R92, R103). -/
theorem RequestResult.pwr_finishSetup {i : Instr} {r : SetupRequest} {s : State} {p : SetupResult × State}
    (h : RequestResult i r s p) : (finishSetup r p).pwr = s.pwr ∨
      (∃ a, i = .setFeatureDevice a r) ∧ (finishSetup r p).pwr = ⟨.drainWait, .feature, s.pwr.wakeArm⟩ ∨
      (∃ a, i = .resetDeviceToBootloader a r) ∧ (finishSetup r p).pwr.state = .exited := by
  cases h with
  | feature n d m hm hx hi => exact .inl (setHalf_pwr n d _ s)
  | sleep hi => exact .inr (.inl ⟨hi, rfl⟩)
  | exit hi => exact .inr (.inr ⟨hi, rfl⟩)
  | _ => exact .inl rfl

/-- A wake leaves the power state as it is, or in RUN (R123). -/
theorem wake_state (src : WakeSrc) (s : State) : (wake src s).pwr.state = s.pwr.state ∨ (wake src s).pwr.state = .run := by
  obtain h | ⟨h, hrun, -⟩ := wake_cases src s
  · exact .inl (by rw [h])
  · exact .inr (by rw [h, hrun])

/-- Settles O46: the ways to a next state that write the power state are the rows of the table. -/
theorem powerStateMovesOnlyAlongItsTable : Obligations.PowerStateMovesOnlyAlongItsTable := by
  intro i s t hw hx hne
  cases exec_next hx with
  | request a r f hp hr hf =>
    rw [acceptedRequest_eq] at hne ⊢
    obtain h | ⟨⟨b, hi⟩, h⟩ | ⟨⟨b, hi⟩, h⟩ := (hf (prepared r s)).pwr_finishSetup
    · exact absurd (congrArg Pwr.state h) hne
    · exact .inr (.inl ⟨hp, ⟨b, r, hi⟩, by rw [h], by rw [h]⟩)
    · exact .inr (.inr (.inl ⟨hp, ⟨b, r, hi⟩, h⟩))
  | packet a r hp hi => exact absurd hi (ne_setup_of_requestOf (p := (a, r)) (by simp [hi, requestOf]) hw _ _)
  | in0 a hp hi hm =>
    refine absurd ?_ hne
    rw [ep0InComplete_eq]
    split_ifs <;> rfl
  | out0 a pid data hp hi hl hm =>
    obtain ⟨u, rfl, -, -, -, -, -, -, -, hpwr, -⟩ := acceptOut_ep0_frame pid data s
    exact absurd (congrArg Pwr.state hpwr) hne
  | out2 a pid data hp hi hl hm =>
    refine absurd ?_ hne
    rw [acceptOut_ep2_eq]
    split_ifs <;> rfl
  | tick hp hi =>
    obtain ⟨-, htx, -⟩ := txStep_frame (rxStep s)
    obtain ⟨-, hrx, -⟩ := rxStep_frame s
    exact absurd (congrArg Pwr.state (htx.trans hrx)) hne
  | suspend hp hi => exact .inl ⟨hp, hi, rfl, rfl⟩
  | halted hp hi => exact .inr (.inr (.inr (.inl ⟨hp, hi, rfl⟩)))
  | wakeToken hp hi =>
    refine .inr (.inr (.inr (.inr ⟨hp, ?_, (wake_state .usb s).resolve_left hne⟩)))
    rcases hi with h | h <;> simp [h]
  | wakeReset hp hi => exact .inr (.inr (.inr (.inr ⟨hp, by simp [hi, opClass], (wake_state .usb s).resolve_left hne⟩)))
  | wakeEvent src hp hi =>
    refine .inr (.inr (.inr (.inr ⟨hp, ?_, (wake_state src s).resolve_left hne⟩)))
    rcases hi with rfl | rfl | rfl <;> simp [opClass]
  | _ => exact absurd rfl hne

/-! ### The suspend cycle -/

/-- An operation that a draining core takes with no effect but its answer: it neither ends the drain nor is refused (R122, R124). -/
abbrev WaitsInDrain (i : Instr) : Prop := opClass i ∈ [.token, .resume, .rxd0, .rxd1] ∨ i = .poll true

theorem drainAnswer_of_tokenAddr {i : Instr} {a : DevAddr} (h : tokenAddr i = some a) (addr : DevAddr) :
    drainAnswer addr i = [.response (if a = addr then .nak else .none)] := by
  simp [drainAnswer, h]

/-- A wake event carries no address (R71), so it is answered nothing. -/
theorem tokenAddr_of_wakeEvent {i : Instr} (hc : opClass i ∈ [OpClass.resume, .rxd0, .rxd1]) : tokenAddr i = none := by
  cases i <;> simp_all [opClass, tokenAddr]

theorem tokenAddr_of_hostToken {i : Instr} (hc : opClass i ∈ [OpClass.setup, .token]) : ∃ a, tokenAddr i = some a := by
  cases i <;> simp_all [opClass, tokenAddr]

theorem exec_drainWait_waits {i : Instr} {s : State} (hf : s.fault = none) (hp : s.pwr.state = .drainWait)
    (hi : WaitsInDrain i) : exec i s = .next { s with out := s.out ++ drainAnswer s.sess.addr i } := by
  rcases hi with hc | rfl
  · by_cases htok : opClass i = .token
    · obtain ⟨a, -, ha, -⟩ := exec_of_opClass_token htok
      rw [exec_drainWait_token hf hp htok ha, drainAnswer_of_tokenAddr ha]
      rfl
    · have hev : opClass i ∈ [OpClass.resume, .rxd0, .rxd1] := by simpa [htok] using hc
      obtain ⟨src, h⟩ := exec_of_wakeEvent hev
      rw [h, wakeGate_drainWait hf hp, drainAnswer, tokenAddr_of_wakeEvent hev, List.append_nil]
  · rw [exec_drainWait_poll hf hp, drainAnswer, tokenAddr, List.append_nil, if_pos rfl]

theorem execAll_drainWait_waits {ds : List Instr} {s : State} (hf : s.fault = none) (hp : s.pwr.state = .drainWait)
    (hds : ∀ i ∈ ds, WaitsInDrain i) :
    execAll ds s = .next { s with out := s.out ++ ds.flatMap (drainAnswer s.sess.addr) } := by
  induction ds generalizing s with
  | nil => simp [execAll]
  | cons i ds ih =>
    obtain ⟨hi, hds⟩ := List.forall_mem_cons.1 hds
    let u : State := { s with out := s.out ++ drainAnswer s.sess.addr i }
    have hrest : execAll ds u = .next { u with out := u.out ++ ds.flatMap (drainAnswer s.sess.addr) } := ih hf hp hds
    rw [execAll_cons_next (exec_drainWait_waits hf hp hi), hrest, List.flatMap_cons, ← List.append_assoc]

/-- While the core is halted, suspends and polls have no effect (R124). -/
theorem execAll_halt_noEffect {hs : List Instr} {s : State} (hf : s.fault = none) (hp : s.pwr.state = .halt)
    (hhs : ∀ i ∈ hs, opClass i ∈ [OpClass.suspend, .poll]) : execAll hs s = .next s := by
  induction hs with
  | nil => rfl
  | cons i hs ih =>
    obtain ⟨hi, hhs⟩ := List.forall_mem_cons.1 hhs
    rw [execAll_cons_next (exec_halt_noEffect hf hp hi), ih hhs]

/-- With all sources armed, as POLL leaves them, every wake event and every host token wakes a halted core (R122, R123). -/
theorem exec_halt_wakes {w : Instr} {s : State} (hf : s.fault = none) (hp : s.pwr.state = .halt) (harm : s.pwr.wakeArm = .all)
    (hw : opClass w ∈ [OpClass.setup, .token, .resume, .rxd0, .rxd1]) :
    exec w s = .next { wakeNow s with out := s.out ++ wakeAnswer w } := by
  by_cases htok : opClass w ∈ [OpClass.setup, .token]
  · obtain ⟨a, ha⟩ := tokenAddr_of_hostToken htok
    rw [exec_halt_hostToken hf hp htok, respond_wake, wake_all harm, wakeAnswer, ha]
  · have hev : opClass w ∈ [OpClass.resume, .rxd0, .rxd1] := by
      simp only [List.mem_cons, List.not_mem_nil, or_false] at hw htok ⊢
      tauto
    obtain ⟨src, h⟩ := exec_of_wakeEvent hev
    have hout : (wakeNow s).out = s.out := by rw [wakeNow_eq]
    rw [h, wakeGate_halt hf hp, wake_all harm, wakeAnswer, tokenAddr_of_wakeEvent hev, List.append_nil, ← hout]

/-- From the end of the suspend sequence on, a suspend cycle is the wake with the answers to its tokens: the drain and the halt leave
no trace (R122, R123). -/
theorem execAll_drain_halt_wake {ds hs : List Instr} {w : Instr} {s : State} (hf : s.fault = none)
    (hp : s.pwr.state = .drainWait) (hds : ∀ i ∈ ds, WaitsInDrain i) (hhs : ∀ i ∈ hs, opClass i ∈ [OpClass.suspend, .poll])
    (hw : opClass w ∈ [OpClass.setup, .token, .resume, .rxd0, .rxd1]) :
    execAll (ds ++ .poll false :: hs ++ [w]) s =
      .next { wakeNow s with out := s.out ++ (ds.flatMap (drainAnswer s.sess.addr) ++ wakeAnswer w) } := by
  let u : State := { s with out := s.out ++ ds.flatMap (drainAnswer s.sess.addr) }
  have hdrain : execAll ds s = .next u := execAll_drainWait_waits hf hp hds
  have hpoll : exec (.poll false) u = .next (haltNow u) := exec_drainWait_poll (s := u) hf hp false
  have hhalt : execAll hs (haltNow u) = .next (haltNow u) := execAll_halt_noEffect hf rfl hhs
  have hwake : exec w (haltNow u) = .next { wakeNow (haltNow u) with out := u.out ++ wakeAnswer w } := exec_halt_wakes hf rfl rfl hw
  rw [List.append_assoc, execAll_append hdrain, List.cons_append, execAll_cons_next hpoll, execAll_append hhalt,
    execAll_cons_next hwake, wakeNow_eq, wakeNow_eq, ← List.append_assoc]
  rfl

/-- Clearing `suspended` of a session that is not suspended changes nothing. -/
theorem sess_awake {s : State} (h : s.sess.suspended = false) : { s.sess with suspended := false } = s.sess := by
  rw [← h]

/-- A wake after a bus SUSPEND gives back the state before it, but for the origin and the powerDown (R121, R123, R125). -/
theorem wakeNow_suspEnter_bus {s : State} (hp : s.pwr.state = .run) (harm : s.pwr.wakeArm = .none)
    (hsusp : s.sess.suspended = false) : wakeNow (suspEnter .bus s) = { s with
      out := s.out ++ [.powerDown], pwr := { s.pwr with origin := .bus } } := by
  simp only [wakeNow_eq, suspEnter, State.emit, hp, harm, sess_awake hsusp]
  rfl

/-- Settles O47: SUSPEND and the sleep request end in DRAIN_WAIT, and the rest of the cycle is the wake with the answers to its
tokens. -/
theorem suspendCycleRestoresTheState : Obligations.SuspendCycleRestoresTheState := by
  intro s ds hs w hrun harm hsusp hds hhs hw answers cycle
  have cycle_ends {i : Instr} {u : State} (hx : exec i s = .next u) (hf : u.fault = none) (hp : u.pwr.state = .drainWait) :
      execAll (cycle i) s = .next { wakeNow u with out := u.out ++ (ds.flatMap (drainAnswer u.sess.addr) ++ wakeAnswer w) } :=
    (execAll_cons_next hx).trans (execAll_drain_halt_wake hf hp hds hhs hw)
  refine ⟨?_, fun a r hwf ha hwake => ?_⟩
  · rw [cycle_ends (exec_busSuspend_running hrun) hrun.1 rfl, wakeNow_suspEnter_bus hrun.2 harm hsusp]
    simp [answers]
  · obtain ⟨m, hm, hx⟩ := (setDeviceFeaturePutsTheCoreToSleep a r s ha).1 hwf hwake
    obtain ⟨hcode, -⟩ := setFeatureDevice_fields hwf
    refine ⟨m, hm, ?_⟩
    rw [cycle_ends hx hrun.1 rfl]
    simp [wakeNow_eq, statusArmed, ep0Ok, hcode, hrun.2, harm, sess_awake hsusp, answers, WakeArm.none]

end Sys2Proof.Machine
end

section
/-! PROOFS, family 70: the bus reset against the table of R144 (O44), and the power-on state against that of R145 and R146 (O49). -/

namespace Sys2Proof.Machine
open Sys2Proof

/-- A bus reset in HALT: the wake runs first, in the same step (R124). -/
theorem exec_busReset_halt {s : State} (hf : s.fault = none) (hp : s.pwr.state = .halt) :
    exec .busReset s = .next (busResetNow (wake .usb s)) := by
  simp only [exec, execBusReset, unlessFaulted_none hf, hp]

/-- The reset overwrites what the wake writes outside the power controller, the deferred SetupOK(0) of the sleep feature among it
(R144, the corner case of origin FEATURE). -/
theorem busResetNow_wakeNow (s : State) :
    busResetNow (wakeNow s) = { busResetNow s with pwr := ⟨.run, s.pwr.origin, .none⟩ } := by
  rw [wakeNow_eq]
  rfl

/-- Settles O44: in RUN the step is `busResetNow`, in HALT `busResetNow` after the wake, of which only the power controller's part is
left; the other power states are rows of R124. -/
theorem busResetRestoresTheTable : Obligations.BusResetRestoresTheTable := by
  refine fun s hf => ⟨?_, fun hp => exec_drainWait_refused hf hp (by simp [opClass]), fun hp => exec_exited hf hp .busReset⟩
  rintro (hp | ⟨hp, husb⟩)
  · rw [exec_busReset_running ⟨hf, hp⟩, if_pos hp]
    rfl
  · have hrun : s.pwr.state ≠ .run := by simp [hp]
    rw [exec_busReset_halt hf hp, wake_of_holds (src := .usb) husb, busResetNow_wakeNow, if_neg hrun]
    rfl

/-- Settles O49: `State.powerOn` gives the table's value to every field, for any parameters. -/
theorem powerOnStateIsTheTable : Obligations.PowerOnStateIsTheTable := ⟨rfl, fun _ => rfl⟩

end Sys2Proof.Machine
end
